-- ==== Sys2Proof/Word.lean ====
section
/-! DEFINITION. The word types of the raw-esp framing core (00_scope.md R15: a byte is 8 bits, every value is unsigned). -/

namespace Sys2Proof

/-- A byte, 0 to 255, bit 0 the least significant (R15). -/
abbrev Byte := BitVec 8

/-- A value of the running checksum, 16 bits (R28, R110). -/
abbrev Crc := BitVec 16

/-- The operation word `{op[2:0], d[7:0]}` (R96). -/
abbrev OpWord := BitVec 11

/-- The receive pattern `{esc, c}` (R88, R104). -/
abbrev RxPattern := BitVec 9

end Sys2Proof
end

