-- ==== Sys2Proof/Config.lean ====
section
/-! DEFINITION. The parameters of one instance of the block (00_scope.md R8 to R11), as plain data. Every parameter is open (D4 to D8);
P0 and P1 are the spec's two test profiles. No parameter is a function: the CRC is named by data (assumption log 2). -/

namespace Sys2Proof

/-- Which single-byte CRC update an instance has (R110: any total function of a 16-bit state and a byte).
`ccittFalse` is profile P0's (R116), `sum16` profile P1's (95_test_vectors.md), and `table` lists a function by its values, an
argument with no row giving 0x0000: every function from 16-bit states and bytes to 16-bit states is some table's. -/
inductive CrcAlg where
  | ccittFalse
  | sum16
  | table (rows : List ((Crc × Byte) × Crc))
deriving DecidableEq, Repr

/-- The parameters of R8, under the spec's own names in lower case. -/
structure Config where
  /-- `FLAG`, the frame-delimiter. -/
  flag : Byte
  /-- `ESC`, the escape-marker. -/
  escMark : Byte
  /-- `MASK`, the escape-mask. -/
  mask : Byte
  /-- `CRC_INIT`, the initial value of the CRC. -/
  crcInit : Crc
  /-- `crc_update`, named by data. -/
  crcAlg : CrcAlg
  /-- `CAP`, the content capacity of the buffer. -/
  cap : Nat
  /-- `PAD`, the number of leading padding bytes of the buffer. -/
  pad : Nat
  /-- `CNTW`, the width of each error counter. -/
  cntw : Nat
deriving DecidableEq, Repr

namespace Config

/-- The constraints of R8, R9 and R10. A configuration that breaks one is not an instance of this hardware (U11). -/
abbrev Valid (c : Config) : Prop :=
  c.flag ≠ c.escMark ∧ c.mask ≠ 0 ∧ c.mask ≠ c.flag ^^^ c.escMark ∧ c.crcInit ≠ 0 ∧ 3 ≤ c.cap ∧ 1 ≤ c.cntw

/-- A reserved byte is one equal to `FLAG` or `ESC` (R19, R81). -/
def reserved (c : Config) (b : Byte) : Bool :=
  b == c.flag || b == c.escMark

/-- The index one past the last byte of the buffer, `PAD + CAP` (R11). -/
def bufEnd (c : Config) : Nat :=
  c.pad + c.cap

/-- The greatest value of a counter, `2^CNTW - 1` (R33). -/
def cntMax (c : Config) : Nat :=
  2 ^ c.cntw - 1

/-- Test profile P0 (R8, R116). -/
def P0 : Config :=
  { flag := 0x7E, escMark := 0x7D, mask := 0x20, crcInit := 0xFFFF, crcAlg := .ccittFalse, cap := 8, pad := 0, cntw := 32 }

/-- Test profile P1 (95_test_vectors.md, Profiles). That file gives P1 no counter width: `cntw := 32`, P0's width, is a DESIGN CHOICE
(assumption log 19). -/
def P1 : Config :=
  { flag := 0xC0, escMark := 0xDB, mask := 0x20, crcInit := 0x0001, crcAlg := .sum16, cap := 8, pad := 0, cntw := 32 }

end Config

end Sys2Proof
end

