-- ==== Sys2Proof/Syntax.lean ====
section
/-! DEFINITION. The instructions: one constructor for each row of spec/opcode_table.json, and the words the rows describe. -/

namespace Sys2Proof

/-- One constructor per row of the opcode table. The first eight are the operation words of R97, the next four the receive forms of
R88, the last three the transmit forms of R89, which describe the encoder's output and are never issued (R104). Operand bits a row ignores (R98) are no operands. -/
inductive Instr where
  /-- `RSVD0`, reserved operation code 000 (R98). -/
  | rsvd0
  /-- `FEED c`: one received wire byte (R140). -/
  | feed (c : Byte)
  /-- `CFGCB en`: configure the dispatch callback (R173). -/
  | cfgcb (en : Bool)
  /-- `RDCNT`: read the two error counters (R175). -/
  | rdcnt
  /-- `BEGIN t`: start a frame of type `t` (R122). -/
  | beginFrame (t : Byte)
  /-- `WRITE b`: one payload byte (R123). -/
  | writeByte (b : Byte)
  /-- `END`: checksum and delimiter (R124). -/
  | endFrame
  /-- `RSVD7`, reserved operation code 111 (R98). -/
  | rsvd7
  /-- `RX.ESC`: `c = ESC`, whatever the pending-escape bit `e` (R141). -/
  | rxEsc (e : Bool)
  /-- `RX.UNESC`: `esc = 1` and `c != ESC` (R142). -/
  | rxUnesc (c : Byte)
  /-- `RX.FLAG`: `esc = 0` and `c = FLAG`, the frame boundary (R143). -/
  | rxFlag
  /-- `RX.DATA`: `esc = 0` and `c` ordinary (R144). -/
  | rxData (c : Byte)
  /-- `TX.LIT`: the ordinary content byte `b` sent as itself (R121). -/
  | txLit (b : Byte)
  /-- `TX.ESCSEQ`: the reserved content byte `b` sent as `ESC, b xor MASK` (R121). -/
  | txEscseq (b : Byte)
  /-- `TX.FLAG`: the raw closing `FLAG` of `END` (R124). -/
  | txFlag
deriving DecidableEq, Repr

/-- What can be issued: the operations of R97 and the reserved words of R98, one constructor for each operation code. -/
inductive Command where
  | rsvd0
  | feed (c : Byte)
  | cfgcb (en : Bool)
  | rdcnt
  | beginFrame (t : Byte)
  | writeByte (b : Byte)
  | endFrame
  | rsvd7
deriving DecidableEq, Repr

/-- The row of an operation. -/
def Command.instr : Command → Instr
  | .rsvd0 => .rsvd0
  | .feed c => .feed c
  | .cfgcb en => .cfgcb en
  | .rdcnt => .rdcnt
  | .beginFrame t => .beginFrame t
  | .writeByte b => .writeByte b
  | .endFrame => .endFrame
  | .rsvd7 => .rsvd7

/-- The four receive forms of R88, without their operands. -/
inductive RxForm where
  | esc | unesc | flag | data
deriving DecidableEq, Repr

/-- A word in one of the opcode table's three formats (R104): an operation word, a receive pattern `{esc, c}`, or the wire bytes of a
transmit form. -/
inductive Fetch where
  | cmd (w : OpWord)
  | rxb (p : RxPattern)
  | txb (wire : List Byte)
deriving DecidableEq, Repr

end Sys2Proof
end

