-- ==== Sys2Proof/WellFormed.lean ====
section
/-! DEFINITION. Which instructions the encodings of 30_encoding.md admit: the conditions of R88 and R89 on the byte forms. -/

namespace Sys2Proof

/-- The operand of a byte form lies in the class its row names (R88, R89). An operation word takes any operand (R97). -/
def Instr.wf (c : Config) : Instr → Bool
  | .rsvd0 => true
  | .feed _ => true
  | .cfgcb _ => true
  | .rdcnt => true
  | .beginFrame _ => true
  | .writeByte _ => true
  | .endFrame => true
  | .rsvd7 => true
  | .rxEsc _ => true
  | .rxUnesc b => b != c.escMark
  | .rxFlag => true
  | .rxData b => !c.reserved b
  | .txLit b => !c.reserved b
  | .txEscseq b => c.reserved b
  | .txFlag => true

end Sys2Proof
end

