-- ==== Sys2Proof/Decode.lean ====
section
/-! DEFINITION. Decoding of the opcode table's three formats (R88, R89, R97, R104), total and rejecting by name, then the encoder written
from the same encodings, and `decodeTableWord`, which reads a word as spec/opcode_table.json numbers its bits. -/

namespace Sys2Proof

/-- Why wire bytes are no transmit form (R89). Operation words and receive patterns are never rejected (R97, R88). -/
inductive Reject where
  /-- No byte at all. -/
  | empty
  /-- An `ESC` with no byte after it: a prefix of a form, not a form (R87). -/
  | loneEscape
  /-- `ESC` and then a byte that is not the masked form of a reserved byte (R89, R94). -/
  | needlessEscape
  /-- Bytes left over after one whole form. -/
  | trailing
deriving DecidableEq, Repr

/-! ### Fields -/

/-- Bits 10:8 of an operation word (R96). -/
def OpWord.op (w : OpWord) : BitVec 3 :=
  w.extractLsb' 8 3

/-- Bits 7:0 of an operation word (R96). -/
def OpWord.operand (w : OpWord) : Byte :=
  w.extractLsb' 0 8

/-- Bit 8 of a receive pattern, the pending-escape bit (R88). -/
def RxPattern.escBit (p : RxPattern) : Bool :=
  p.getLsbD 8

/-- Bits 7:0 of a receive pattern, the received byte (R88). -/
def RxPattern.byte (p : RxPattern) : Byte :=
  p.extractLsb' 0 8

/-- The receive pattern `{esc, c}` (R88). -/
def rxPattern (e : Bool) (c : Byte) : RxPattern :=
  BitVec.ofBool e ++ c

/-- The operation word `{op, d}` (R96). -/
def opWord (op : BitVec 3) (d : Byte) : OpWord :=
  op ++ d

/-! ### Decoding -/

/-- The operation of an operation word (R97, R98). -/
def decodeCmd (w : OpWord) : Instr :=
  if w.op = 0b000 then .rsvd0
  else if w.op = 0b001 then .feed w.operand
  else if w.op = 0b010 then .cfgcb (w.operand.getLsbD 0)
  else if w.op = 0b011 then .rdcnt
  else if w.op = 0b100 then .beginFrame w.operand
  else if w.op = 0b101 then .writeByte w.operand
  else if w.op = 0b110 then .endFrame
  else .rsvd7

/-- The form of a fed byte, tested in the priority order of R88: escape-marker, pending escape, delimiter, data (R196). -/
def rxForm (c : Config) (e : Bool) (b : Byte) : RxForm :=
  if b = c.escMark then .esc
  else if e then .unesc
  else if b = c.flag then .flag
  else .data

/-- The receive form of a pattern `{esc, c}` (R88). -/
def decodeRx (c : Config) (p : RxPattern) : Instr :=
  match rxForm c p.escBit p.byte with
  | .esc => .rxEsc p.escBit
  | .unesc => .rxUnesc p.byte
  | .flag => .rxFlag
  | .data => .rxData p.byte

/-- The first transmit form of a wire byte sequence and the bytes after it (R89). -/
def decodeTxHead (c : Config) : List Byte → Except Reject (Instr × List Byte)
  | [] => .error .empty
  | b :: rest =>
    if b = c.flag then .ok (.txFlag, rest)
    else if b = c.escMark then
      match rest with
      | [] => .error .loneEscape
      | m :: rest' => if c.reserved (m ^^^ c.mask) then .ok (.txEscseq (m ^^^ c.mask), rest') else .error .needlessEscape
    else .ok (.txLit b, rest)

/-- The transmit form whose wire bytes are exactly these (R89). -/
def decodeTx (c : Config) (wire : List Byte) : Except Reject Instr :=
  match decodeTxHead c wire with
  | .error r => .error r
  | .ok (i, []) => .ok i
  | .ok (_, _ :: _) => .error .trailing

/-- The instruction of a word in any of the three formats. -/
def decode (c : Config) : Fetch → Except Reject Instr
  | .cmd w => .ok (decodeCmd w)
  | .rxb p => .ok (decodeRx c p)
  | .txb wire => decodeTx c wire

/-! ### Encoding -/

/-- The word of an instruction (R97, R88, R89). Ignored operand bits are 0. -/
def encode (c : Config) : Instr → Fetch
  | .rsvd0 => .cmd (opWord 0b000 0)
  | .feed b => .cmd (opWord 0b001 b)
  | .cfgcb en => .cmd (opWord 0b010 ((BitVec.ofBool en).zeroExtend 8))
  | .rdcnt => .cmd (opWord 0b011 0)
  | .beginFrame t => .cmd (opWord 0b100 t)
  | .writeByte b => .cmd (opWord 0b101 b)
  | .endFrame => .cmd (opWord 0b110 0)
  | .rsvd7 => .cmd (opWord 0b111 0)
  | .rxEsc e => .rxb (rxPattern e c.escMark)
  | .rxUnesc b => .rxb (rxPattern true b)
  | .rxFlag => .rxb (rxPattern false c.flag)
  | .rxData b => .rxb (rxPattern false b)
  | .txLit b => .txb [b]
  | .txEscseq b => .txb [c.escMark, b ^^^ c.mask]
  | .txFlag => .txb [c.flag]

/-! ### Words as the opcode table numbers them -/

/-- The operation word whose output holds this transmit form: the `WRITE` of its content byte, or `END` for the raw `FLAG` (R89, R104);
none for bytes that are no form. -/
def emittingWord (c : Config) (wire : List Byte) : Option OpWord :=
  match decodeTx c wire with
  | .ok (.txLit b) => some (opWord 0b101 b)
  | .ok (.txEscseq b) => some (opWord 0b101 b)
  | .ok .txFlag => some (opWord 0b110 0)
  | .ok _ => none
  | .error _ => none


/-- The word `w` of `nbits` bits in the format the table gives that many bits (assumption log 8): 9 bits a receive pattern, 8 bits one
transmit byte, else an operation word if it fits 11 bits and two transmit bytes, the first in bits 7:0, if it does not. -/
def tableFetch (nbits w : Nat) : Fetch :=
  if nbits = 9 then .rxb (BitVec.ofNat 9 w)
  else if nbits = 8 then .txb [BitVec.ofNat 8 w]
  else if w < 2 ^ 11 then .cmd (BitVec.ofNat 11 w)
  else .txb [BitVec.ofNat 8 w, BitVec.ofNat 8 (w / 2 ^ 8)]

/-- The instruction of a table word, under the profile P0 whose numbers the table prints. -/
def decodeTableWord (nbits w : Nat) : Option Instr :=
  match decode Config.P0 (tableFetch nbits w) with
  | .ok i => some i
  | .error _ => none

end Sys2Proof
end

