-- ==== Sys2Proof/Machine/State.lean ====
section
/-! DEFINITION. The state of one instance of the block as plain data (10_state.md), the inputs the outside world has issued, the reasons a
step can stop, and the state after reset (R38). -/

namespace Sys2Proof.Machine

/-- A dispatched message: the type byte and the payload, by value (R37, R170). -/
structure Message where
  type : Byte
  payload : List Byte
deriving DecidableEq, Repr

/-- The outcome of a frame boundary, the enumeration `Outcome` of R185. -/
inductive FrameOutcome where
  | tooLong | sync | tooShort | crcBad | delivered | noCallback
deriving DecidableEq, Repr

/-- One thing the outside world does to the block, performed whole by one step. -/
inductive Input where
  /-- An operation word on the command port (R96). -/
  | cmd (w : OpWord)
  /-- A received byte on the receive port: a `FEED` (R64, R100). -/
  | rxByte (c : Byte)
  /-- Reset (R210). It comes between operations, never inside a dispatch (DESIGN CHOICE, assumption log 20). -/
  | reset
deriving DecidableEq, Repr

/-- What the consumer does inside one dispatch: the operations it issues, in order, and whether it then returns (R197, R200, R201). -/
structure Visit where
  ops : List Command
  returns : Bool
deriving DecidableEq, Repr

/-- Why the machine makes no further progress. The block itself has no fault path (R193): no operation on its own state ends here. -/
inductive Fault where
  /-- Raised by a frame boundary with outcome `DELIVERED` whose consumer does not return: the spec's `stuck` (U12, R201). It ends the run,
  so a reset pending behind it is never performed (DESIGN CHOICE, assumption log 20: safe for that fault, unsafe for claims log 20 names). -/
  | consumerNeverReturns
deriving DecidableEq, Repr

/-- Why the model gives no meaning: only what the source forbids the host to do (R193, U3, U11). -/
inductive Refusal where
  /-- Raised by `exec` for an instruction whose meaning is not written yet. Safe. -/
  | notModelled (mnemonic : String)
  /-- Raised by `step` when the configuration breaks a constraint of R8 to R10: it is no instance of this hardware (U11, D17). Safe. -/
  | badConfig
  /-- Raised by a frame boundary whose consumer issues a `FEED` from inside the dispatch (U3, R177). Safe. -/
  | feedInsideDispatch
deriving DecidableEq, Repr

/-- The state: the decoder's, the encoder's, the histories, the parameters and the inputs to come. -/
structure State where
  /-- The parameters of the instance (R8); no step changes them (assumption log 1). -/
  cfg : Config
  /-- `buf` (R21): the listed bytes, indices strictly rising; an unlisted index reads 0x00 (assumption log 3). -/
  buf : List Host.Cell
  /-- `wr` (R22). -/
  wr : Nat
  /-- `esc` (R23). -/
  esc : Bool
  /-- `err` (R24). -/
  err : Bool
  /-- `crc_err_cnt` (R25). -/
  crcErrCnt : Nat
  /-- `tot_err_cnt` (R26). -/
  totErrCnt : Nat
  /-- `cb_en` (R27). -/
  cbEn : Bool
  /-- `crc_tx` (R28). -/
  crcTx : Crc
  /-- `tx_lock` (R29). -/
  txLock : Bool
  /-- `tx_out`, the bytes emitted, oldest first (R41). -/
  txOut : List Byte
  /-- `dispatch_log`, the messages dispatched, oldest first (R41). -/
  dispatchLog : List Message
  /-- The pairs (tot_err_cnt, crc_err_cnt) that `RDCNT` has returned, oldest first (R175, assumption log 16). -/
  cntLog : List (Nat × Nat)
  /-- The outcomes of the frame boundaries so far, oldest first (R185, assumption log 16). -/
  outcomeLog : List FrameOutcome
  /-- The inputs issued and not yet performed, oldest first (assumption log 4). -/
  pending : List Input
  /-- What the consumer does inside the dispatches to come; none listed is one that returns at once (assumption log 10). -/
  visits : List Visit
deriving DecidableEq, Repr

/-- What a meaning answers. -/
abbrev Result := Host.Outcome State Fault Refusal

/-- The state after reset of an instance with parameters `c` (R38), nothing pending. -/
def State.resetWith (c : Config) : State :=
  { cfg := c, buf := [], wr := c.pad, esc := false, err := false, crcErrCnt := 0, totErrCnt := 0, cbEn := false,
    crcTx := c.crcInit, txLock := false, txOut := [], dispatchLog := [], cntLog := [], outcomeLog := [], pending := [], visits := [] }

/-- The state after reset of the P0 instance (R8, R38; assumption log 1). -/
def State.reset : State :=
  State.resetWith Config.P0

end Sys2Proof.Machine
end

