-- ==== Sys2Proof/Machine/Memory.lean ====
section
/-! DEFINITION. The frame buffer as a canonical list of cells (20_memory.md): indices strictly rising, no cell equal to what an unlisted
index reads as. -/

namespace Sys2Proof.Machine

/-- The bytes of the frame buffer (R50). -/
abbrev Memory := List Host.Cell

/-- What a byte reads as that nothing has written since construction (assumption log 3). -/
def Memory.blank : Byte :=
  0x00

/-- `buf[a]` (R16). -/
def Memory.read : Memory → Nat → Byte
  | [], _ => Memory.blank
  | (b, v) :: rest, a => if a = b then v else Memory.read rest a

/-- `buf[a] <- v` (R16, R56). Writing `blank` removes the cell. -/
def Memory.write : Memory → Nat → Byte → Memory
  | [], a, v => if v = Memory.blank then [] else [(a, v)]
  | (b, w) :: rest, a, v =>
    if a < b then (if v = Memory.blank then (b, w) :: rest else (a, v) :: (b, w) :: rest)
    else if a = b then (if v = Memory.blank then rest else (a, v) :: rest)
    else (b, w) :: Memory.write rest a v

/-- `len` bytes from index `a` upward, `buf[a .. a + len)` (R16). -/
def Memory.slice (m : Memory) (a len : Nat) : List Byte :=
  (List.range len).map fun i => Memory.read m (a + i)

/-- The canonical form. -/
abbrev Memory.wf (m : Memory) : Prop :=
  (m.map Prod.fst).Pairwise (· < ·) ∧ ∀ cell ∈ m, cell.2 ≠ Memory.blank

end Sys2Proof.Machine
end

