-- ==== Sys2Proof/Machine/Flags.lean ====
section
/-! DEFINITION. The computations on values: the CRC (40_crc.md), the saturating counters (R33), which outcomes count (R185). -/

namespace Sys2Proof.Machine

/-- One bit step of the P0 CRC (R116): shift left, and xor the polynomial 0x1021 if bit 15 was 1. -/
def crcShift (s : Crc) : Crc :=
  if s.getLsbD 15 then (s <<< 1) ^^^ 0x1021 else s <<< 1

/-- The P0 step: the byte into the high half, then eight bit steps (R116). -/
def crcCcitt (s : Crc) (b : Byte) : Crc :=
  Nat.repeat crcShift 8 (s ^^^ (b.zeroExtend 16 <<< 8))

/-- The P1 step: `(s + b) mod 2^16` (95_test_vectors.md). -/
def crcSum (s : Crc) (b : Byte) : Crc :=
  s + b.zeroExtend 16

/-- A CRC listed by its values; an argument with no row gives 0 (assumption log 2). -/
def crcTable (rows : List ((Crc × Byte) × Crc)) (s : Crc) (b : Byte) : Crc :=
  (rows.lookup (s, b)).getD 0

/-- `crc_update` (R110, R111). -/
def crcUpdate (c : Config) (s : Crc) (b : Byte) : Crc :=
  match c.crcAlg with
  | .ccittFalse => crcCcitt s b
  | .sum16 => crcSum s b
  | .table rows => crcTable rows s b

/-- `crc_block(bs) = foldl crc_update CRC_INIT bs` (R112). -/
def crcBlock (c : Config) (bs : List Byte) : Crc :=
  bs.foldl (crcUpdate c) c.crcInit

/-- `sat_inc` (R33). -/
def satInc (c : Config) (n : Nat) : Nat :=
  if n < c.cntMax then n + 1 else n

/-- The outcomes that raise `tot_err_cnt` (R185). -/
def FrameOutcome.isError : FrameOutcome → Bool
  | .tooLong => true
  | .sync => false
  | .tooShort => true
  | .crcBad => true
  | .delivered => false
  | .noCallback => false

/-- The outcome that raises `crc_err_cnt` (R185). -/
def FrameOutcome.isCrcError : FrameOutcome → Bool
  | .tooLong => false
  | .sync => false
  | .tooShort => false
  | .crcBad => true
  | .delivered => false
  | .noCallback => false

end Sys2Proof.Machine
end

