-- ==== Sys2Proof/Machine/Operands.lean ====
section
/-! DEFINITION. Operand assembly: escaping and un-escaping (R82, R83), the checksum's two bytes (R53, R84), the wire format (R80, R129). -/

namespace Sys2Proof.Machine

/-- The wire bytes of a content byte (R82). -/
def escaped (c : Config) (b : Byte) : List Byte :=
  if c.reserved b then [c.escMark, b ^^^ c.mask] else [b]

/-- The content byte of a wire byte that follows an `ESC` (R83). -/
def unescape (c : Config) (b : Byte) : Byte :=
  b ^^^ c.mask

/-- `cks_lo`, bits 7:0 (R84). -/
def cksLow (s : Crc) : Byte :=
  s.extractLsb' 0 8

/-- `cks_hi`, bits 15:8 (R84). -/
def cksHigh (s : Crc) : Byte :=
  s.extractLsb' 8 8

/-- `{hi, lo}`, a 16-bit value (R15, R53). -/
def joinCks (hi lo : Byte) : Crc :=
  hi ++ lo

/-- The content bytes of the frame of message `(t, p)`: type, payload, checksum low, checksum high (R80). -/
def frameContent (c : Config) (t : Byte) (p : List Byte) : List Byte :=
  t :: p ++ [cksLow (crcBlock c (t :: p)), cksHigh (crcBlock c (t :: p))]

/-- The wire bytes of the frame of message `(t, p)` (R80, R129). -/
def wireFrame (c : Config) (t : Byte) (p : List Byte) : List Byte :=
  (frameContent c t p).flatMap (escaped c) ++ [c.flag]

end Sys2Proof.Machine
end

