-- ==== Sys2Proof/Machine/Ops.lean ====
section
/-! DEFINITION. The named operations over State that the meanings share: the register writes, the byte-write primitive PUT (R121), the buffer
write attempt PUSH (R145), frame validation (R151), dispatch entry and the boundary reset (R199, R200, R152), reset (R210), and fetching
the next input. -/

namespace Sys2Proof.Machine

/-- Go on from a next state; a stop stays. -/
def andThen (r : Result) (f : State → Result) : Result :=
  match r with
  | .next s => f s
  | .fault e => .fault e
  | .refused e => .refused e

/-! ### Register writes -/

/-- `esc <- e`. -/
def State.setEsc (e : Bool) (s : State) : State :=
  { s with esc := e }

/-- `err <- 1` (R24). -/
def State.latchErr (s : State) : State :=
  { s with err := true }

/-- `buf[wr] <- v; wr <- wr + 1` (R145). -/
def State.store (v : Byte) (s : State) : State :=
  { s with buf := Memory.write s.buf s.wr v, wr := s.wr + 1 }

/-- `cb_en <- en` (R27). -/
def State.setCbEn (en : Bool) (s : State) : State :=
  { s with cbEn := en }

/-- `crc_tx <- v` (R28). -/
def State.setCrcTx (v : Crc) (s : State) : State :=
  { s with crcTx := v }

/-- `tx_lock <- l` (R29). -/
def State.setTxLock (l : Bool) (s : State) : State :=
  { s with txLock := l }

/-- `emit(v)` (R16, R65). -/
def State.emit (v : Byte) (s : State) : State :=
  { s with txOut := s.txOut ++ [v] }

/-- `tot_err_cnt <- sat_inc(tot_err_cnt)` (R26). -/
def State.countTot (s : State) : State :=
  { s with totErrCnt := satInc s.cfg s.totErrCnt }

/-- `crc_err_cnt <- sat_inc(crc_err_cnt)` (R25). -/
def State.countCrc (s : State) : State :=
  { s with crcErrCnt := satInc s.cfg s.crcErrCnt }

/-- Record what a frame boundary ended in (assumption log 16). -/
def State.recordOutcome (o : FrameOutcome) (s : State) : State :=
  { s with outcomeLog := s.outcomeLog ++ [o] }

/-- `dispatch(t, p)` (R170). -/
def State.dispatch (m : Message) (s : State) : State :=
  { s with dispatchLog := s.dispatchLog ++ [m] }

/-- Record the pair `RDCNT` returns, both read at once (R175, assumption log 16). -/
def State.returnCounters (s : State) : State :=
  { s with cntLog := s.cntLog ++ [(s.totErrCnt, s.crcErrCnt)] }

/-- The inputs still to come. -/
def State.setPending (p : List Input) (s : State) : State :=
  { s with pending := p }

/-- What the consumer does in the dispatches still to come. -/
def State.setVisits (v : List Visit) (s : State) : State :=
  { s with visits := v }

/-- `BRESET`, the boundary reset: `wr <- PAD; err <- 0; esc <- 0` (R152). The buffer is not cleared (R34). -/
def State.boundaryReset (s : State) : State :=
  { s with wr := s.cfg.pad, err := false, esc := false }

/-- The reset event (R210): the values of R38, histories emptied. The parameters stay (R210), the buffer keeps its unobservable content
and the inputs to come stay (assumption log 17). -/
def State.resetEvent (s : State) : State :=
  { State.resetWith s.cfg with buf := s.buf, pending := s.pending, visits := s.visits }

/-! ### The encoder's byte-write primitive -/

/-- The first half of `PUT`, form `TX.LIT`: the byte as it is (R121). -/
def State.emitLit (b : Byte) (s : State) : State :=
  s.emit b

/-- The first half of `PUT`, form `TX.ESCSEQ`: `ESC`, then the masked byte (R121). -/
def State.emitEscseq (b : Byte) (s : State) : State :=
  (s.emit s.cfg.escMark).emit (b ^^^ s.cfg.mask)

/-- The second half of `PUT`: the running checksum takes the content byte, not the wire bytes (R121). -/
def State.account (b : Byte) (s : State) : State :=
  s.setCrcTx (crcUpdate s.cfg s.crcTx b)

/-- `PUT b` (R121). -/
def State.put (b : Byte) (s : State) : State :=
  if s.cfg.reserved b then (s.emitEscseq b).account b else (s.emitLit b).account b

/-! ### The buffer write attempt -/

/-- `PUSH v` (R145). With `wr` in the range of R22 the test is R145's. In states that no run reaches, with `wr` outside that range, there is
no byte at `wr` and the byte is discarded too (assumption log 14). -/
def push (v : Byte) (s : State) : Result :=
  if s.cfg.pad ≤ s.wr ∧ s.wr < s.cfg.bufEnd then .next (s.store v)
  else .next s.latchErr

/-! ### Frame validation -/

/-- `n = wr - PAD`, the content length (R19). -/
def State.contentLen (s : State) : Nat :=
  s.wr - s.cfg.pad

/-- The type and payload bytes, `buf[PAD .. wr-2)` (R149). -/
def State.checkedContent (s : State) : List Byte :=
  Memory.slice s.buf s.cfg.pad (s.contentLen - 2)

/-- `exp`, the checksum of the checked content (R149). -/
def State.expectedCks (s : State) : Crc :=
  crcBlock s.cfg s.checkedContent

/-- `got = {buf[wr-1], buf[wr-2]}` (R149, R53). -/
def State.receivedCks (s : State) : Crc :=
  joinCks (Memory.read s.buf (s.wr - 1)) (Memory.read s.buf (s.wr - 2))

/-- The message of the frame in the buffer: `buf[PAD]` and `buf[PAD+1 .. wr-2)` (R150). -/
def State.bufferedMessage (s : State) : Message :=
  { type := Memory.read s.buf s.cfg.pad, payload := Memory.slice s.buf (s.cfg.pad + 1) (s.contentLen - 3) }

/-- The outcome of a frame boundary, the first of the steps of R146 to R150 whose condition holds (R195). -/
def State.outcome (s : State) : FrameOutcome :=
  if s.err then .tooLong
  else if s.contentLen = 0 then .sync
  else if s.contentLen < 3 then .tooShort
  else if s.expectedCks ≠ s.receivedCks then .crcBad
  else if s.cbEn then .delivered
  else .noCallback

/-- Error entry: the counters of R185 and nothing else (R198). -/
def State.countOutcome (o : FrameOutcome) (s : State) : State :=
  match o with
  | .tooLong => s.countTot
  | .sync => s
  | .tooShort => s.countTot
  | .crcBad => s.countCrc.countTot
  | .delivered => s
  | .noCallback => s

/-- Dispatch entry: the message is presented while the frame is still in the buffer; nothing is saved or masked (R199). -/
def State.enterDispatch (o : FrameOutcome) (s : State) : State :=
  match o with
  | .tooLong => s
  | .sync => s
  | .tooShort => s
  | .crcBad => s
  | .delivered => s.dispatch s.bufferedMessage
  | .noCallback => s

/-- `VALIDATE` (R151): the counters, the dispatch, and the outcome recorded. -/
def State.validate (s : State) : State :=
  ((s.countOutcome s.outcome).enterDispatch s.outcome).recordOutcome s.outcome

/-! ### Fetching the next input -/

/-- The instruction of an input: an operation word's operation, or the receive form of a received byte joined with the pending-escape bit
(R88). None for reset, which is no operation word (R210). -/
def State.fetchOf (s : State) : Input → Option Instr
  | .cmd w => some (decodeCmd w)
  | .rxByte c => some (decodeRx s.cfg (rxPattern s.esc c))
  | .reset => none

/-- `s` with a word issued before everything pending, so that the next step fetches it. A receive pattern carries the bit `esc`. A transmit
form is output, so the operation that emits it is issued, and nothing for bytes that are no form (R104, assumption log 8). -/
def State.issue (f : Fetch) (s : State) : State :=
  match f with
  | .cmd w => s.setPending (.cmd w :: s.pending)
  | .rxb p => (s.setEsc p.escBit).setPending (.rxByte p.byte :: s.pending)
  | .txb wire =>
    match emittingWord s.cfg wire with
    | some w => s.setPending (.cmd w :: s.pending)
    | none => s

end Sys2Proof.Machine
end

