-- ==== Sys2Proof/Machine/Encoder.lean ====
section
/-! DEFINITION. The meanings of the encoder's operations and of the transmit forms (41_encoder.md). -/

namespace Sys2Proof.Machine

/-- `BEGIN t` (R122). -/
def execBeginFrame (t : Byte) (s : State) : Result :=
  .next (((s.setTxLock true).setCrcTx s.cfg.crcInit).put t)

/-- `WRITE b` (R123). -/
def execWriteByte (b : Byte) (s : State) : Result :=
  .next (s.put b)

/-- `END` (R124): both checksum bytes are halves of the running checksum as it stood at the start (R125). -/
def execEndFrame (s : State) : Result :=
  .next ((((((s.put (cksLow s.crcTx)).put (cksHigh s.crcTx)).emit s.cfg.flag).setTxLock false).setCrcTx s.cfg.crcInit))

/-- `TX.LIT`, the form of `PUT` for an ordinary byte (R121): what the encoder does when it emits it (R104, assumption log 7). -/
def execTxLit (b : Byte) (s : State) : Result :=
  .next ((s.emitLit b).account b)

/-- `TX.ESCSEQ`, the form of `PUT` for a reserved byte (R121): what the encoder does when it emits it (R104, assumption log 7). -/
def execTxEscseq (b : Byte) (s : State) : Result :=
  .next ((s.emitEscseq b).account b)

/-- `TX.FLAG`, raw, not through `PUT` (R124): what the encoder does when it emits it, inside `END` alone (R104, assumption log 7). -/
def execTxFlag (s : State) : Result :=
  .next (s.emit s.cfg.flag)

end Sys2Proof.Machine
end

