-- ==== Sys2Proof/Machine/Status.lean ====
section
/-! DEFINITION. The meanings of the control and status operations (43_dispatch_and_status.md) and of the reserved operation words (R98). -/

namespace Sys2Proof.Machine

/-- `CFGCB en` (R173). -/
def execCfgcb (en : Bool) (s : State) : Result :=
  .next (s.setCbEn en)

/-- `RDCNT` (R175). -/
def execRdcnt (s : State) : Result :=
  .next s.returnCounters

/-- Reserved operation code 000 (R98). -/
def execRsvd0 (s : State) : Result :=
  .next s

/-- Reserved operation code 111 (R98). -/
def execRsvd7 (s : State) : Result :=
  .next s

end Sys2Proof.Machine
end

