-- ==== Sys2Proof/Machine/Decoder.lean ====
section
/-! DEFINITION. The meanings of `FEED` and of its four receive forms (42_decoder.md), with what the consumer of a dispatch may do (R197, R177,
R200, R201). -/

namespace Sys2Proof.Machine

/-- One operation issued by the consumer from inside a dispatch: `CFGCB`, `RDCNT` and encoder operations run (R197), a `FEED` is refused
(R177, U3). -/
def consumerOp (i : Command) (s : State) : Result :=
  match i with
  | .rsvd0 => execRsvd0 s
  | .feed _ => .refused .feedInsideDispatch
  | .cfgcb en => execCfgcb en s
  | .rdcnt => execRdcnt s
  | .beginFrame t => execBeginFrame t s
  | .writeByte b => execWriteByte b s
  | .endFrame => execEndFrame s
  | .rsvd7 => execRsvd7 s

/-- The operations of one visit, in order. -/
def consumerOps : List Command → State → Result
  | [], s => .next s
  | i :: rest, s => andThen (consumerOp i s) (consumerOps rest)

/-- The consumer's turn inside a dispatch. One not listed returns at once (assumption log 10); one that does not return leaves the
decoder stuck (U12, R201). DESIGN CHOICE, assumption log 20: no reset comes inside a dispatch and none ends a stuck one. R211 lets reset come
at any time, R201 says stuck for good, and the spec does not say which holds there. -/
def consumerTurn (s : State) : Result :=
  match s.visits with
  | [] => .next s
  | v :: rest =>
    andThen (consumerOps v.ops (s.setVisits rest)) fun t =>
      if v.returns then .next t else .fault .consumerNeverReturns

/-- `RX.ESC` (R141). The bit `e` of the pattern does not matter. -/
def execRxEsc (_e : Bool) (s : State) : Result :=
  .next (s.setEsc true)

/-- `RX.UNESC` (R142). -/
def execRxUnesc (c : Byte) (s : State) : Result :=
  push (unescape s.cfg c) (s.setEsc false)

/-- `RX.FLAG` (R143): validation, then for a dispatched frame the consumer's turn, then the boundary reset (R171, R200). -/
def execRxFlag (s : State) : Result :=
  match s.outcome with
  | .tooLong => .next s.validate.boundaryReset
  | .sync => .next s.validate.boundaryReset
  | .tooShort => .next s.validate.boundaryReset
  | .crcBad => .next s.validate.boundaryReset
  | .delivered => andThen (consumerTurn s.validate) fun t => .next t.boundaryReset
  | .noCallback => .next s.validate.boundaryReset

/-- `RX.DATA` (R144). -/
def execRxData (c : Byte) (s : State) : Result :=
  push c s

/-- `FEED c` (R140): the form is chosen by `(esc, c)` in the order of R88. -/
def execFeed (c : Byte) (s : State) : Result :=
  match rxForm s.cfg s.esc c with
  | .esc => execRxEsc s.esc s
  | .unesc => execRxUnesc c s
  | .flag => execRxFlag s
  | .data => execRxData c s

end Sys2Proof.Machine
end

