-- ==== Sys2Proof/Machine/Dispatch.lean ====
section
/-! DEFINITION. What each instruction does: one arm per row of the opcode table. -/

namespace Sys2Proof.Machine

def exec (i : Instr) (s : State) : Host.Outcome State Fault Refusal :=
  match i with
  | .rsvd0 => Sys2Proof.Machine.execRsvd0 s
  | .feed c => Sys2Proof.Machine.execFeed c s
  | .cfgcb en => Sys2Proof.Machine.execCfgcb en s
  | .rdcnt => Sys2Proof.Machine.execRdcnt s
  | .beginFrame t => Sys2Proof.Machine.execBeginFrame t s
  | .writeByte b => Sys2Proof.Machine.execWriteByte b s
  | .endFrame => Sys2Proof.Machine.execEndFrame s
  | .rsvd7 => Sys2Proof.Machine.execRsvd7 s
  | .rxEsc e => Sys2Proof.Machine.execRxEsc e s
  | .rxUnesc c => Sys2Proof.Machine.execRxUnesc c s
  | .rxFlag => Sys2Proof.Machine.execRxFlag s
  | .rxData c => Sys2Proof.Machine.execRxData c s
  | .txLit b => Sys2Proof.Machine.execTxLit b s
  | .txEscseq b => Sys2Proof.Machine.execTxEscseq b s
  | .txFlag => Sys2Proof.Machine.execTxFlag s

end Sys2Proof.Machine
end

