-- ==== Sys2Proof/Machine/Step.lean ====
section
/-! DEFINITION. One step: the oldest pending input, performed whole (R13, R58). With nothing pending nothing changes (R208). -/

namespace Sys2Proof.Machine

/-- One step. A configuration that breaks a constraint of R8 to R10 has no meaning (U11). -/
def step (s : State) : Host.Outcome State Fault Refusal :=
  if s.cfg.Valid then
    match s.pending with
    | [] => .next s
    | x :: rest =>
      match s.fetchOf x with
      | none => .next (s.setPending rest).resetEvent
      | some i => exec i (s.setPending rest)
  else .refused .badConfig

/-- `s` with the table word `w` issued before everything pending (assumption logs 4 and 8). -/
def State.withFetchWord (s : State) (nbits w : Nat) : State :=
  s.issue (tableFetch nbits w)

end Sys2Proof.Machine
end

