-- ==== Sys2Proof/Machine/Pseudo.lean ====
section
/-! DEFINITION. Sequences of operations and the pseudo-operations of R103. -/

namespace Sys2Proof.Machine

/-- The operations of a list, one after the other, stopping at the first that stops (R229). -/
def runOps : List Instr → State → Result
  | [], s => .next s
  | i :: rest, s => andThen (exec i s) (runOps rest)

/-- `SEND t, p` (R103). -/
def send (t : Byte) (p : List Byte) : List Instr :=
  .beginFrame t :: p.map .writeByte ++ [.endFrame]

/-- `FEEDS cs` (R103). `LOOP` is `FEEDS` of an encoder's emitted bytes (R61). -/
def feeds (cs : List Byte) : List Instr :=
  cs.map .feed

end Sys2Proof.Machine
end

