-- ==== Sys2Proof/Safety.lean ====
section
/-! DEFINITION. The invariants of the model (R32, R33, R176) and when a state lets every operation complete. -/

namespace Sys2Proof.Machine

/-- The cursor stays in `[PAD, PAD + CAP]`, and a latched error means a full buffer (R32 (a), (b)). -/
abbrev State.CursorOk (s : State) : Prop :=
  s.cfg.pad ≤ s.wr ∧ s.wr ≤ s.cfg.bufEnd ∧ (s.err = true → s.wr = s.cfg.bufEnd)

/-- The counters fit their width and the checksum count never passes the total (R25, R26, R33). -/
abbrev State.CountersOk (s : State) : Prop :=
  s.crcErrCnt ≤ s.totErrCnt ∧ s.totErrCnt ≤ 2 ^ s.cfg.cntw - 1

/-- The buffer is in canonical form and has no byte outside its `PAD + CAP` (R21, R32 (d)). -/
abbrev State.BufferOk (s : State) : Prop :=
  Memory.wf s.buf ∧ ∀ cell ∈ s.buf, cell.1 < s.cfg.bufEnd

/-- The invariant of the block's own state. -/
abbrev State.Inv (s : State) : Prop :=
  s.CursorOk ∧ s.CountersOk ∧ s.BufferOk

/-- The counters are the numbers of error outcomes since reset, up to saturation, and there is one dispatch for each outcome
`DELIVERED` (R176, R171). -/
abbrev State.CountsMatch (s : State) : Prop :=
  s.totErrCnt = min (2 ^ s.cfg.cntw - 1) (s.outcomeLog.countP FrameOutcome.isError) ∧
    s.crcErrCnt = min (2 ^ s.cfg.cntw - 1) (s.outcomeLog.countP FrameOutcome.isCrcError) ∧
    s.dispatchLog.length = s.outcomeLog.count .delivered

/-- Successive `RDCNT` results never decrease, and the counters are never below one already returned (R176). -/
abbrev State.ReadsMonotone (s : State) : Prop :=
  s.cntLog.Pairwise (fun a b => a.1 ≤ b.1 ∧ a.2 ≤ b.2) ∧ ∀ r ∈ s.cntLog, r.1 ≤ s.totErrCnt ∧ r.2 ≤ s.crcErrCnt

/-- The instruction consumes a received byte: `FEED` or a receive form of one (R88, R140). -/
def Instr.receives : Instr → Bool
  | .rsvd0 => false
  | .feed _ => true
  | .cfgcb _ => false
  | .rdcnt => false
  | .beginFrame _ => false
  | .writeByte _ => false
  | .endFrame => false
  | .rsvd7 => false
  | .rxEsc _ => true
  | .rxUnesc _ => true
  | .rxFlag => true
  | .rxData _ => true
  | .txLit _ => false
  | .txEscseq _ => false
  | .txFlag => false

/-- An operation that a consumer may issue from inside a dispatch: anything but a `FEED` (R177, R197). -/
def Command.allowedInDispatch (i : Command) : Bool :=
  !Instr.receives i.instr

/-- The consumer keeps its duties in every dispatch to come: no re-entry, and it returns (R217, R218). -/
abbrev State.ConsumerBehaves (s : State) : Prop :=
  ∀ v ∈ s.visits, v.returns = true ∧ ∀ i ∈ v.ops, Command.allowedInDispatch i = true

/-- The operation reads and writes no encoder state (R20). -/
def Instr.onDecoder : Instr → Bool
  | .rsvd0 => false
  | .feed _ => true
  | .cfgcb _ => true
  | .rdcnt => true
  | .beginFrame _ => false
  | .writeByte _ => false
  | .endFrame => false
  | .rsvd7 => false
  | .rxEsc _ => true
  | .rxUnesc _ => true
  | .rxFlag => true
  | .rxData _ => true
  | .txLit _ => false
  | .txEscseq _ => false
  | .txFlag => false

/-- The operation reads and writes no decoder state (R20). -/
def Instr.onEncoder : Instr → Bool
  | .rsvd0 => false
  | .feed _ => false
  | .cfgcb _ => false
  | .rdcnt => false
  | .beginFrame _ => true
  | .writeByte _ => true
  | .endFrame => true
  | .rsvd7 => false
  | .rxEsc _ => false
  | .rxUnesc _ => false
  | .rxFlag => false
  | .rxData _ => false
  | .txLit _ => true
  | .txEscseq _ => true
  | .txFlag => true

/-- The next state of a result, if it has one. -/
def Result.state? : Result → Option State
  | .next s => some s
  | .fault _ => none
  | .refused _ => none

end Sys2Proof.Machine
end

