-- ==== Sys2Proof/Certificates/Slice0/Obligations.lean ====
section
/-! DEFINITION. The statements about the model. Each names the rule it states, or says that it rests on a decision or an inference which the
spec marks as its own, or on a choice of the model (an assumption log). -/

/-! ### Words the statements share -/

namespace Sys2Proof.Claims

open Sys2Proof.Machine

/-- Every byte of the buffer reads as before. -/
def SameMemory (s t : State) : Prop :=
  ∀ a, Memory.read t.buf a = Memory.read s.buf a

/-- Every byte of the buffer but the one at `x` reads as before. -/
def SameMemoryBut (x : Nat) (s t : State) : Prop :=
  ∀ a, a ≠ x → Memory.read t.buf a = Memory.read s.buf a

/-- The encoder's state and its output are as before (R28, R29, R41). -/
def SameEncoder (s t : State) : Prop :=
  t.crcTx = s.crcTx ∧ t.txLock = s.txLock ∧ t.txOut = s.txOut

/-- The decoder's registers are as before (R22 to R27). -/
def SameDecoderRegs (s t : State) : Prop :=
  t.wr = s.wr ∧ t.esc = s.esc ∧ t.err = s.err ∧ t.crcErrCnt = s.crcErrCnt ∧ t.totErrCnt = s.totErrCnt ∧ t.cbEn = s.cbEn

/-- The counters and the callback bit are as before. -/
def SameStatus (s t : State) : Prop :=
  t.crcErrCnt = s.crcErrCnt ∧ t.totErrCnt = s.totErrCnt ∧ t.cbEn = s.cbEn

/-- The histories of dispatches, counter reads and outcomes are as before. -/
def SameLogs (s t : State) : Prop :=
  t.dispatchLog = s.dispatchLog ∧ t.cntLog = s.cntLog ∧ t.outcomeLog = s.outcomeLog

/-- The parameters and the inputs to come are as before. -/
def SameSurround (s t : State) : Prop :=
  t.cfg = s.cfg ∧ t.pending = s.pending ∧ t.visits = s.visits

/-- What a buffer write attempt of `v` does to `buf`, `wr` and `err` (R145): with `wr` at the end index the byte is discarded and `err`
set, else the byte is stored at `wr`, `wr` goes up by one and `err` stays. -/
def Pushed (v : Byte) (s t : State) : Prop :=
  (s.wr = s.cfg.pad + s.cfg.cap → t.err = true ∧ t.wr = s.wr ∧ SameMemory s t) ∧
    (s.wr ≠ s.cfg.pad + s.cfg.cap →
      t.err = s.err ∧ t.wr = s.wr + 1 ∧ Memory.read t.buf s.wr = v ∧ SameMemoryBut s.wr s t)

/-- What every frame boundary leaves: the boundary reset done, the buffer not cleared, and everything that a boundary does not speak of as
before (R152). -/
def BoundaryDone (s t : State) : Prop :=
  t.wr = s.cfg.pad ∧ t.err = false ∧ t.esc = false ∧ SameMemory s t ∧ t.cbEn = s.cbEn ∧ SameEncoder s t ∧
    t.cntLog = s.cntLog ∧ t.cfg = s.cfg ∧ t.pending = s.pending

/-- A frame boundary of `s` reached by the operation `FEED FLAG` or by its form `RX.FLAG` answers `t`. -/
def BoundaryAnswers (s t : State) : Prop :=
  exec .rxFlag s = .next t ∧ (s.esc = false → exec (.feed s.cfg.flag) s = .next t)

/-- `n = wr - PAD` (R19). -/
def len (s : State) : Nat :=
  s.wr - s.cfg.pad

/-- The checksum of `buf[PAD .. wr-2)` equals the two bytes before `wr`, the high one last (R149, R53). -/
def ChecksumAgrees (s : State) : Prop :=
  (crcBlock s.cfg (Memory.slice s.buf s.cfg.pad (len s - 2))).toNat =
    (Memory.read s.buf (s.wr - 1)).toNat * 256 + (Memory.read s.buf (s.wr - 2)).toNat

/-- `m` is the counter value `n` after one increment, in R33's numbers: one more below `2^CNTW - 1`, else unchanged. -/
def Incremented (c : Config) (n m : Nat) : Prop :=
  (n < 2 ^ c.cntw - 1 → m = n + 1) ∧ (¬ n < 2 ^ c.cntw - 1 → m = n)

/-- A parser's answer: the transmit form of content byte `b` (R89). -/
def txFormOf (c : Config) (b : Byte) : Instr :=
  if b = c.flag ∨ b = c.escMark then .txEscseq b else .txLit b

/-- Two states that differ at most in buffer bytes outside `[PAD, wr)` (R34, R36). -/
def SameButStale (s t : State) : Prop :=
  t = { s with buf := t.buf } ∧ s.BufferOk ∧ t.BufferOk ∧
    ∀ a, s.cfg.pad ≤ a → a < s.wr → Memory.read t.buf a = Memory.read s.buf a

/-- The decoder stands at a frame boundary: state NORMAL, nothing latched, nothing buffered. -/
def AtBoundary (s : State) : Prop :=
  s.esc = false ∧ s.err = false ∧ s.wr = s.cfg.pad ∧ s.BufferOk

end Sys2Proof.Claims

open Sys2Proof Sys2Proof.Machine Sys2Proof.Claims

/-! ### Encodings -/

/-- R96, R97, R88, R89, R104: decoding the word of a well-formed instruction gives the instruction back, for every instruction, every operand
and every configuration that meets its constraints. The operation word is the spec's own choice (D3). -/
def Obligations.DecodeOfEncodeIsTheInstruction : Prop :=
  ∀ c : Config, c.Valid → ∀ i : Instr, i.wf c = true → decode c (encode c i) = .ok i

/-- DV-26, R97, R104: words written out from the tables, under profile P0. -/
def Obligations.TabledWordsDecodeToTheirRows : Prop :=
  decodeCmd 0b000_11111111 = .rsvd0 ∧ decodeCmd 0b001_01111101 = .feed 0x7D ∧ decodeCmd 0b010_11111110 = .cfgcb false ∧
    decodeCmd 0b010_11111111 = .cfgcb true ∧ decodeCmd 0b011_10101011 = .rdcnt ∧ decodeCmd 0b100_00000010 = .beginFrame 0x02 ∧
    decodeCmd 0b101_01111110 = .writeByte 0x7E ∧ decodeCmd 0b110_11111111 = .endFrame ∧ decodeCmd 0b111_10100101 = .rsvd7 ∧
    decodeRx .P0 0b0_01111101 = .rxEsc false ∧ decodeRx .P0 0b1_01111101 = .rxEsc true ∧ decodeRx .P0 0b1_01111110 = .rxUnesc 0x7E ∧
    decodeRx .P0 0b0_01111110 = .rxFlag ∧ decodeRx .P0 0b0_01000001 = .rxData 0x41 ∧
    decodeTx .P0 [0b01000001] = .ok (.txLit 0x41) ∧ decodeTx .P0 [0b01111101, 0b01011110] = .ok (.txEscseq 0x7E) ∧
    decodeTx .P0 [0b01111110] = .ok .txFlag ∧ decodeTx .P0 [0b01111101] = .error .loneEscape ∧
    decodeTx .P0 [0b01111101, 0b01000001] = .error .needlessEscape

/-- R97, R98 (the spec's own encoding, D3, D16): every operation word decodes to its row, whatever the ignored operand bits. -/
def Obligations.OperationCodesSelectTheirRows : Prop :=
  ∀ d : Byte, decodeCmd (opWord 0b000 d) = .rsvd0 ∧ decodeCmd (opWord 0b001 d) = .feed d ∧
    decodeCmd (opWord 0b010 d) = .cfgcb (d.getLsbD 0) ∧ decodeCmd (opWord 0b011 d) = .rdcnt ∧
    decodeCmd (opWord 0b100 d) = .beginFrame d ∧ decodeCmd (opWord 0b101 d) = .writeByte d ∧
    decodeCmd (opWord 0b110 d) = .endFrame ∧ decodeCmd (opWord 0b111 d) = .rsvd7

/-- R88: the four conditions, in priority order, decide the form of every pair (`esc`, `c`), and the form is well formed. -/
def Obligations.ReceiveFormsPartitionAllPairs : Prop :=
  ∀ c : Config, c.Valid → ∀ (e : Bool) (b : Byte),
    (decodeRx c (rxPattern e b)).wf c = true ∧
    (decodeRx c (rxPattern e b) = .rxEsc e ↔ b = c.escMark) ∧
    (decodeRx c (rxPattern e b) = .rxUnesc b ↔ e = true ∧ b ≠ c.escMark) ∧
    (decodeRx c (rxPattern e b) = .rxFlag ↔ e = false ∧ b = c.flag) ∧
    (decodeRx c (rxPattern e b) = .rxData b ↔ e = false ∧ b ≠ c.escMark ∧ b ≠ c.flag)

/-- R82, R89, R94: the wire bytes of a content byte followed by anything read back as the one transmit form of that byte, and the raw
delimiter as `TX.FLAG`. -/
def Obligations.TransmitFormsReadBack : Prop :=
  ∀ c : Config, c.Valid → ∀ (b : Byte) (rest : List Byte),
    decodeTxHead c (escaped c b ++ rest) = .ok (txFormOf c b, rest) ∧ (txFormOf c b).wf c = true ∧
    decodeTxHead c (c.flag :: rest) = .ok (.txFlag, rest)

/-! ### The step -/

/-- R13, R58, R88, R89, R96, R104, with the model's queue of inputs (assumption logs 4, 6, 8): a step takes the oldest pending input and is
`exec` of the instruction it decodes to. A received byte is joined with the bit `esc` and decoded as one of the four receive forms. The wire bytes of a transmit form are output and no input:
issuing them issues the operation that emits the form, a `WRITE` that does just what the form `TX.LIT` or `TX.ESCSEQ` does, and `END` for
`TX.FLAG`. -/
def Obligations.StepRunsTheDecodedInstruction : Prop :=
  ∀ (s : State) (rest : List Input), s.cfg.Valid →
    (∀ w : OpWord, s.pending = .cmd w :: rest → step s = exec (decodeCmd w) (s.setPending rest)) ∧
    (∀ b : Byte, s.pending = .rxByte b :: rest → step s = exec (decodeRx s.cfg (rxPattern s.esc b)) (s.setPending rest)) ∧
    (∀ (i : Instr), i.wf s.cfg = true → i ≠ .txFlag → (∀ e, i = .rxEsc e → s.esc = e) → (∀ b, i = .rxUnesc b → s.esc = true) →
      (i = .rxFlag → s.esc = false) → (∀ b, i = .rxData b → s.esc = false) →
      step (s.issue (encode s.cfg i)) = exec i s) ∧
    step (s.issue (encode s.cfg .txFlag)) = exec .endFrame s

/-- R196, R140: a `FEED` is the form that the first matching test selects: escape-marker, pending escape, delimiter, data. A byte received
on the receive port is exactly a `FEED` of that byte (DEDUCED, assumption log 6), as is the operation word `001 c` (the spec's own encoding,
D3). Both step clauses speak of the model's queue of inputs (DESIGN CHOICE, assumption log 4). -/
def Obligations.FeedIsClassifiedInOrder : Prop :=
  ∀ (s : State) (b : Byte) (rest : List Input), s.cfg.Valid →
    exec (.feed b) s =
      (if b = s.cfg.escMark then exec (.rxEsc s.esc) s
       else if s.esc = true then exec (.rxUnesc b) s
       else if b = s.cfg.flag then exec .rxFlag s
       else exec (.rxData b) s) ∧
    (s.pending = .rxByte b :: rest → step s = exec (.feed b) (s.setPending rest)) ∧
    (s.pending = .cmd (opWord 0b001 b) :: rest → step s = exec (.feed b) (s.setPending rest))

/-- R208 (derived by the spec) and assumption log 5: with nothing pending a step changes nothing. -/
def Obligations.StepWithoutInputChangesNothing : Prop :=
  ∀ s : State, s.cfg.Valid → s.pending = [] → step s = .next s

/-- R8, R9, R10, U11 (decided by the spec, D17): a configuration that breaks any one constraint is refused, whatever is pending. -/
def Obligations.BrokenConfigurationsAreRefused : Prop :=
  ∀ s : State,
    (s.cfg.flag = s.cfg.escMark → step s = .refused .badConfig) ∧
    (s.cfg.mask = 0 → step s = .refused .badConfig) ∧
    (s.cfg.mask = s.cfg.flag ^^^ s.cfg.escMark → step s = .refused .badConfig) ∧
    (s.cfg.crcInit = 0 → step s = .refused .badConfig) ∧
    (s.cfg.cap < 3 → step s = .refused .badConfig) ∧
    (s.cfg.cntw < 1 → step s = .refused .badConfig)

/-- R38 (its decided values are the spec's own, D9): the state after reset, for every configuration. The buffer's content is unspecified
(D21) and is not stated. That `State.reset` is the reset state of profile P0 is the model's choice (DESIGN CHOICE, assumption log 1). -/
def Obligations.ResetHoldsTheTabledValues : Prop :=
  State.reset = State.resetWith .P0 ∧ ∀ c : Config,
    (State.resetWith c).cfg = c ∧ (State.resetWith c).esc = false ∧ (State.resetWith c).cbEn = false ∧
    (State.resetWith c).crcTx = c.crcInit ∧ (State.resetWith c).wr = c.pad ∧ (State.resetWith c).err = false ∧
    (State.resetWith c).crcErrCnt = 0 ∧ (State.resetWith c).totErrCnt = 0 ∧ (State.resetWith c).txLock = false ∧
    (State.resetWith c).txOut = [] ∧ (State.resetWith c).dispatchLog = []

/-- R210, R211 (D9): reset from any state, in mid frame or not, gives every element the value of R38 and empties the histories; the
parameters stay. That the buffer and the inputs to come stay is the model's choice (assumption log 17), and so is that reset comes between
operations, not inside a dispatch (DESIGN CHOICE, assumption log 20). -/
def Obligations.ResetMayComeAtAnyTime : Prop :=
  ∀ (s : State) (rest : List Input), s.cfg.Valid → s.pending = .reset :: rest →
    ∃ t, step s = .next t ∧ t.esc = false ∧ t.cbEn = false ∧ t.crcTx = s.cfg.crcInit ∧ t.wr = s.cfg.pad ∧ t.err = false ∧
      t.crcErrCnt = 0 ∧ t.totErrCnt = 0 ∧ t.txLock = false ∧ t.txOut = [] ∧ t.dispatchLog = [] ∧ t.cntLog = [] ∧
      t.outcomeLog = [] ∧ SameMemory s t ∧ t.cfg = s.cfg ∧ t.pending = rest ∧ t.visits = s.visits

/-! ### The receive forms -/

/-- R141: an `ESC` byte sets `esc` whatever it held, also while `err` is set, and changes nothing else. -/
def Obligations.EscapeMarkerOnlySetsEsc : Prop :=
  ∀ s : State, ∃ t, exec (.feed s.cfg.escMark) s = .next t ∧ (∀ e, exec (.rxEsc e) s = .next t) ∧ t.esc = true ∧
    t.wr = s.wr ∧ t.err = s.err ∧ SameStatus s t ∧ SameMemory s t ∧ SameEncoder s t ∧ SameLogs s t ∧ SameSurround s t

/-- R144, R145: an ordinary byte in state NORMAL is offered to the buffer as it is. -/
def Obligations.OrdinaryByteIsPushed : Prop :=
  ∀ (s : State) (b : Byte), s.CursorOk → s.BufferOk →
    ∃ t, exec (.rxData b) s = .next t ∧
      (s.esc = false → b ≠ s.cfg.escMark → b ≠ s.cfg.flag → exec (.feed b) s = .next t) ∧
      Pushed b s t ∧ t.esc = s.esc ∧ SameStatus s t ∧ SameEncoder s t ∧ SameLogs s t ∧ SameSurround s t

/-- R142, R145, R154: in state ESCAPED any byte but `ESC`, the delimiter included, is un-escaped and offered to the buffer; `esc` is
cleared and no validation runs. -/
def Obligations.EscapedByteIsUnmaskedAndPushed : Prop :=
  ∀ (s : State) (b : Byte), s.CursorOk → s.BufferOk →
    ∃ t, exec (.rxUnesc b) s = .next t ∧
      (s.esc = true → b ≠ s.cfg.escMark → exec (.feed b) s = .next t) ∧
      Pushed (b ^^^ s.cfg.mask) s t ∧ t.esc = false ∧ SameStatus s t ∧ SameEncoder s t ∧ SameLogs s t ∧ SameSurround s t

/-- R153: while `err = 1` content bytes are discarded, `esc` goes on being set and cleared, and only an un-escaped `FLAG` ends the
condition, with outcome `TOO_LONG`. -/
def Obligations.LatchedErrorDiscardsUntilTheBoundary : Prop :=
  ∀ (s : State) (b : Byte), s.cfg.Valid → s.Inv → s.err = true →
    ∃ t, exec (.feed b) s = .next t ∧ SameMemory s t ∧
      (¬ (s.esc = false ∧ b = s.cfg.flag) →
        t.err = true ∧ t.wr = s.wr ∧ (t.esc = true ↔ b = s.cfg.escMark) ∧ t.outcomeLog = s.outcomeLog) ∧
      ((s.esc = false ∧ b = s.cfg.flag) →
        t.err = false ∧ t.wr = s.cfg.pad ∧ t.esc = false ∧ t.outcomeLog = s.outcomeLog ++ [.tooLong])

/-- R155 (derived by the spec): any run of consecutive `ESC` bytes acts as one. -/
def Obligations.RunOfEscapesActsAsOne : Prop :=
  ∀ (s : State) (n : Nat), runOps (feeds (List.replicate (n + 1) s.cfg.escMark)) s = exec (.feed s.cfg.escMark) s

/-- R91 row 3 (derived by the spec): an unnecessary escape of an ordinary byte is accepted, so a content byte can have two wire spellings
with one effect on the whole state. -/
def Obligations.NeedlessEscapeHasTheSameEffect : Prop :=
  ∀ (s : State) (b : Byte), s.cfg.Valid → s.esc = false → b ≠ s.cfg.escMark → b ≠ s.cfg.flag → b ^^^ s.cfg.mask ≠ s.cfg.escMark →
    runOps (feeds [s.cfg.escMark, b ^^^ s.cfg.mask]) s = exec (.feed b) s

/-! ### The frame boundary -/

/-- R146: with `err` set the outcome is `TOO_LONG`: `tot_err_cnt` alone is incremented (R33, saturation decided by the spec, D8),
nothing is dispatched, whatever the buffer holds. -/
def Obligations.TooLongFrameIsCountedOnce : Prop :=
  ∀ s : State, s.cfg.Valid → s.Inv → s.err = true →
    ∃ t, BoundaryAnswers s t ∧ BoundaryDone s t ∧ Incremented s.cfg s.totErrCnt t.totErrCnt ∧ t.crcErrCnt = s.crcErrCnt ∧
      t.dispatchLog = s.dispatchLog ∧ t.outcomeLog = s.outcomeLog ++ [.tooLong] ∧ t.visits = s.visits

/-- R147: a delimiter with nothing buffered is passed over without a count. -/
def Obligations.SyncFrameCountsNothing : Prop :=
  ∀ s : State, s.cfg.Valid → s.Inv → s.err = false → len s = 0 →
    ∃ t, BoundaryAnswers s t ∧ BoundaryDone s t ∧ t.totErrCnt = s.totErrCnt ∧ t.crcErrCnt = s.crcErrCnt ∧
      t.dispatchLog = s.dispatchLog ∧ t.outcomeLog = s.outcomeLog ++ [.sync] ∧ t.visits = s.visits

/-- R148: one or two content bytes are too short: `tot_err_cnt` alone is incremented (R33, saturation decided by the spec, D8), nothing is
dispatched. -/
def Obligations.TooShortFrameIsCounted : Prop :=
  ∀ s : State, s.cfg.Valid → s.Inv → s.err = false → (len s = 1 ∨ len s = 2) →
    ∃ t, BoundaryAnswers s t ∧ BoundaryDone s t ∧ Incremented s.cfg s.totErrCnt t.totErrCnt ∧ t.crcErrCnt = s.crcErrCnt ∧
      t.dispatchLog = s.dispatchLog ∧ t.outcomeLog = s.outcomeLog ++ [.tooShort] ∧ t.visits = s.visits

/-- R149, with the content-only checksum scope that the spec decides (D7): on a mismatch both counters are incremented
(R33, saturation decided by the spec, D8), nothing is dispatched. -/
def Obligations.ChecksumMismatchCountsBoth : Prop :=
  ∀ s : State, s.cfg.Valid → s.Inv → s.err = false → 3 ≤ len s → ¬ ChecksumAgrees s →
    ∃ t, BoundaryAnswers s t ∧ BoundaryDone s t ∧ Incremented s.cfg s.totErrCnt t.totErrCnt ∧
      Incremented s.cfg s.crcErrCnt t.crcErrCnt ∧ t.dispatchLog = s.dispatchLog ∧
      t.outcomeLog = s.outcomeLog ++ [.crcBad] ∧ t.visits = s.visits

/-- R150, R170, R171 (checksum scope D7): a good frame with the callback configured is dispatched exactly once, type and payload by value,
and no counter changes. The consumer issues nothing and returns (assumption log 10). -/
def Obligations.GoodFrameIsDispatched : Prop :=
  ∀ s : State, s.cfg.Valid → s.Inv → s.err = false → 3 ≤ len s → ChecksumAgrees s → s.cbEn = true →
    (s.visits = [] ∨ ∃ later, s.visits = ⟨[], true⟩ :: later) →
    ∃ t, BoundaryAnswers s t ∧ BoundaryDone s t ∧ t.totErrCnt = s.totErrCnt ∧ t.crcErrCnt = s.crcErrCnt ∧
      t.dispatchLog = s.dispatchLog ++
        [⟨Memory.read s.buf s.cfg.pad, Memory.slice s.buf (s.cfg.pad + 1) (len s - 3)⟩] ∧
      t.outcomeLog = s.outcomeLog ++ [.delivered] ∧ t.visits = s.visits.tail

/-- R174, the outcome `NO_CALLBACK` (decided by the spec, D15): a good frame with the callback absent is lost, no counter changes, and the
consumer is not called. -/
def Obligations.GoodFrameWithoutCallbackIsLost : Prop :=
  ∀ s : State, s.cfg.Valid → s.Inv → s.err = false → 3 ≤ len s → ChecksumAgrees s → s.cbEn = false →
    ∃ t, BoundaryAnswers s t ∧ BoundaryDone s t ∧ t.totErrCnt = s.totErrCnt ∧ t.crcErrCnt = s.crcErrCnt ∧
      t.dispatchLog = s.dispatchLog ∧ t.outcomeLog = s.outcomeLog ++ [.noCallback] ∧ t.visits = s.visits

/-- R151, R143, R185 (the outcome history is the model's, assumption log 16): with `FLAG` and `ESC` distinct (R8), a frame boundary, by
`RX.FLAG` or by a `FEED FLAG` with `esc = 0`, records exactly one outcome, that of the state before it, and every other operation none. -/
def Obligations.OutcomesComeFromBoundariesOnly : Prop :=
  ∀ (i : Instr) (s t : State), s.cfg.flag ≠ s.cfg.escMark → exec i s = .next t →
    (t.outcomeLog = s.outcomeLog ∧ i ≠ .rxFlag ∧ ¬ (i = .feed s.cfg.flag ∧ s.esc = false)) ∨
    (t.outcomeLog = s.outcomeLog ++ [s.outcome] ∧ (i = .rxFlag ∨ (i = .feed s.cfg.flag ∧ s.esc = false)))

/-! ### The consumer's turn inside a dispatch -/

/-- R197, R200, U14 (decided by the spec, D11, D18; the visit is the model's, assumption log 10): operations that are no `FEED`, issued by the
consumer from inside a dispatch, do there what they do outside, after validation and before the boundary reset. -/
def Obligations.ConsumerOperationsRunBeforeTheReset : Prop :=
  ∀ (s : State) (v : Visit) (later : List Visit), s.cfg.Valid → s.Inv → s.outcome = .delivered → s.visits = v :: later →
    v.returns = true → (∀ i ∈ v.ops, Command.allowedInDispatch i = true) →
    ∃ u t, runOps (v.ops.map Command.instr) (s.validate.setVisits later) = .next u ∧ BoundaryAnswers s t ∧
      t.wr = s.cfg.pad ∧ t.err = false ∧ t.esc = false ∧ SameMemory s t ∧
      t.dispatchLog = s.dispatchLog ++ [s.bufferedMessage] ∧ t.outcomeLog = s.outcomeLog ++ [.delivered] ∧
      t.crcErrCnt = s.crcErrCnt ∧ t.totErrCnt = s.totErrCnt ∧ t.cbEn = u.cbEn ∧ SameEncoder u t ∧ t.cntLog = u.cntLog ∧
      t.cfg = s.cfg ∧ t.pending = s.pending ∧ t.visits = later

/-- R197, D18: a `CFGCB` and a `RDCNT` from inside a dispatch: the frame is still delivered, the new `cb_en` holds for the next frame, and
the read returns the counters as they stand after validation. -/
def Obligations.ConfigureAndReadInsideADispatch : Prop :=
  ∀ (s : State) (en : Bool) (later : List Visit), s.cfg.Valid → s.Inv → s.outcome = .delivered →
    s.visits = ⟨[.cfgcb en, .rdcnt], true⟩ :: later →
    ∃ t, BoundaryAnswers s t ∧ t.cbEn = en ∧ t.cntLog = s.cntLog ++ [(s.totErrCnt, s.crcErrCnt)] ∧
      t.dispatchLog = s.dispatchLog ++ [s.bufferedMessage] ∧ t.wr = s.cfg.pad ∧ SameEncoder s t ∧ SameMemory s t

/-- R177, U3 (decided by the spec, D18): a `FEED` issued from inside a dispatch, whatever was issued before and after it, is
refused. -/
def Obligations.FeedInsideADispatchIsRefused : Prop :=
  ∀ (s : State) (before after : List Command) (c : Byte) (r : Bool) (later : List Visit), s.outcome = .delivered →
    s.visits = ⟨before ++ .feed c :: after, r⟩ :: later →
    exec .rxFlag s = .refused .feedInsideDispatch

/-- R201, U12 (decided by the spec, D11): a consumer that does not return leaves the decoder stuck. That no reset comes inside the dispatch
or ends it is the model's choice (DESIGN CHOICE, assumption log 20). -/
def Obligations.ConsumerThatNeverReturnsIsStuck : Prop :=
  ∀ (s : State) (ops : List Command) (later : List Visit), s.outcome = .delivered → s.visits = ⟨ops, false⟩ :: later →
    (∀ i ∈ ops, Command.allowedInDispatch i = true) → exec .rxFlag s = .fault .consumerNeverReturns

/-! ### Streams fed to the decoder -/

/-- R93 (derived by the spec): two consecutive `FLAG` bytes, or one if `esc = 0`, leave `wr = PAD`, `err = 0`, `esc = 0`. -/
def Obligations.TwoDelimitersResynchronise : Prop :=
  ∀ s : State, s.cfg.Valid → s.Inv → s.ConsumerBehaves →
    (∃ t, runOps (feeds [s.cfg.flag, s.cfg.flag]) s = .next t ∧ t.wr = s.cfg.pad ∧ t.err = false ∧ t.esc = false) ∧
    (s.esc = false → ∃ t, exec (.feed s.cfg.flag) s = .next t ∧ t.wr = s.cfg.pad ∧ t.err = false ∧ t.esc = false)

/-- R160, R145, R52 (derived by the spec): from a frame boundary the wire bytes of `k` content bytes store the first `CAP` of them at
`PAD` upward and latch `err` exactly when `k > CAP`; wire bytes do not count. -/
def Obligations.CapacityCountsContentBytes : Prop :=
  ∀ (s : State) (bs : List Byte), s.cfg.Valid → AtBoundary s →
    ∃ t, runOps (feeds (bs.flatMap (escaped s.cfg))) s = .next t ∧
      t.wr = s.cfg.pad + min bs.length s.cfg.cap ∧ (t.err = true ↔ s.cfg.cap < bs.length) ∧ t.esc = false ∧
      (∀ k (hk : k < bs.length), k < s.cfg.cap → Memory.read t.buf (s.cfg.pad + k) = bs[k]) ∧
      (∀ a, (a < s.cfg.pad ∨ s.cfg.pad + s.cfg.cap ≤ a) → Memory.read t.buf a = Memory.read s.buf a) ∧
      SameStatus s t ∧ SameEncoder s t ∧ SameLogs s t ∧ SameSurround s t

/-- R127, R160, R221 (derived by the spec): a message longer than the receiver's capacity is counted once as too long (one
increment, R33, D8) and not dispatched, whatever its checksum. -/
def Obligations.OversizeMessageEndsTooLong : Prop :=
  ∀ (s : State) (ty : Byte) (p : List Byte), s.cfg.Valid → AtBoundary s → s.cfg.cap < p.length + 3 →
    ∃ t, runOps (feeds (wireFrame s.cfg ty p)) s = .next t ∧ Incremented s.cfg s.totErrCnt t.totErrCnt ∧
      t.crcErrCnt = s.crcErrCnt ∧ t.dispatchLog = s.dispatchLog ∧ t.outcomeLog = s.outcomeLog ++ [.tooLong] ∧
      t.wr = s.cfg.pad ∧ t.err = false ∧ t.esc = false ∧ SameEncoder s t

/-- R159 (the exact statement is derived by the spec): decoding the bytes of an encoded message that fits yields exactly one dispatch of it,
changes no counter, and leaves the decoder at a boundary. The consumer issues nothing (assumption log 10). -/
def Obligations.DecoderRecoversEveryEncodedMessage : Prop :=
  ∀ (s : State) (ty : Byte) (p : List Byte), s.cfg.Valid → AtBoundary s → s.cbEn = true → s.visits = [] → p.length + 3 ≤ s.cfg.cap →
    ∃ t, runOps (feeds (wireFrame s.cfg ty p)) s = .next t ∧ t.dispatchLog = s.dispatchLog ++ [⟨ty, p⟩] ∧
      t.outcomeLog = s.outcomeLog ++ [.delivered] ∧ SameStatus s t ∧ AtBoundary t ∧ SameEncoder s t ∧ t.cntLog = s.cntLog ∧
      SameSurround s t

/-- R61, R129, R159: `SEND t, p` and then feeding back the bytes it emitted dispatches `(t, p)` once, changes no counter, and leaves the
encoder unlocked with its checksum at the initial value. The consumer issues nothing and returns (DESIGN CHOICE, assumption log 10). -/
def Obligations.LoopBackDeliversTheMessage : Prop :=
  ∀ (s : State) (ty : Byte) (p : List Byte), s.cfg.Valid → AtBoundary s → s.cbEn = true → s.visits = [] → p.length + 3 ≤ s.cfg.cap →
    ∃ u t, runOps (send ty p) s = .next u ∧ runOps (feeds (u.txOut.drop s.txOut.length)) u = .next t ∧
      t.dispatchLog = s.dispatchLog ++ [⟨ty, p⟩] ∧ SameStatus s t ∧ AtBoundary t ∧ t.crcTx = s.cfg.crcInit ∧ t.txLock = false ∧
      t.txOut = u.txOut

/-! ### The encoder -/

/-- R122 (the lock bit is decided by the spec, D12): `BEGIN t` locks, restarts the checksum, puts the type byte. -/
def Obligations.BeginStartsAFrame : Prop :=
  ∀ (s : State) (ty : Byte), ∃ t, exec (.beginFrame ty) s = .next t ∧ t.txLock = true ∧
    t.crcTx = crcUpdate s.cfg s.cfg.crcInit ty ∧
    t.txOut = s.txOut ++ (if ty = s.cfg.flag ∨ ty = s.cfg.escMark then [s.cfg.escMark, ty ^^^ s.cfg.mask] else [ty]) ∧
    SameDecoderRegs s t ∧ SameMemory s t ∧ SameLogs s t ∧ SameSurround s t

/-- R121 (with R123's operation): a content byte equal to `FLAG` or `ESC` is sent as `ESC` and the masked byte, any other as itself, and the
checksum takes the content byte. `WRITE b` does this, and each transmit form does its half of it. The second byte of an escape is never
reserved when the configuration meets its constraints. That `exec` gives a transmit form, on any byte, the encoder's whole action of emitting it,
the checksum update included, is the model's choice (DESIGN CHOICE, assumption log 7). -/
def Obligations.PutEscapesAndAccounts : Prop :=
  ∀ (s : State) (b : Byte),
    (∃ t, exec (.writeByte b) s = .next t ∧ t.crcTx = crcUpdate s.cfg s.crcTx b ∧
      t.txOut = s.txOut ++ (if b = s.cfg.flag ∨ b = s.cfg.escMark then [s.cfg.escMark, b ^^^ s.cfg.mask] else [b]) ∧
      t.txLock = s.txLock ∧ SameDecoderRegs s t ∧ SameMemory s t ∧ SameLogs s t ∧ SameSurround s t) ∧
    (∃ t, exec (.txLit b) s = .next t ∧ t.crcTx = crcUpdate s.cfg s.crcTx b ∧ t.txOut = s.txOut ++ [b] ∧
      t.txLock = s.txLock ∧ SameDecoderRegs s t ∧ SameMemory s t ∧ SameLogs s t ∧ SameSurround s t) ∧
    (∃ t, exec (.txEscseq b) s = .next t ∧ t.crcTx = crcUpdate s.cfg s.crcTx b ∧
      t.txOut = s.txOut ++ [s.cfg.escMark, b ^^^ s.cfg.mask] ∧
      t.txLock = s.txLock ∧ SameDecoderRegs s t ∧ SameMemory s t ∧ SameLogs s t ∧ SameSurround s t) ∧
    exec (.writeByte b) s = exec (txFormOf s.cfg b) s ∧
    (s.cfg.Valid → b = s.cfg.flag ∨ b = s.cfg.escMark → b ^^^ s.cfg.mask ≠ s.cfg.flag ∧ b ^^^ s.cfg.mask ≠ s.cfg.escMark)

/-- R124 (the lock bit is decided by the spec, D12): `END` puts the low and then the high byte of the running checksum as it stood, emits one raw `FLAG`, releases the lock and resets
the checksum. The form `TX.FLAG` is the emission of one raw `FLAG` and changes nothing else: that `exec` gives it a meaning apart from
`END` is the model's choice (DESIGN CHOICE, assumption log 7). -/
def Obligations.EndSendsChecksumAndDelimiter : Prop :=
  ∀ s : State,
    (∃ (t : State) (lo hi : Byte), exec .endFrame s = .next t ∧ s.crcTx.toNat = hi.toNat * 256 + lo.toNat ∧
      t.txOut = s.txOut ++ (escaped s.cfg lo ++ (escaped s.cfg hi ++ [s.cfg.flag])) ∧ t.txLock = false ∧ t.crcTx = s.cfg.crcInit ∧
      SameDecoderRegs s t ∧ SameMemory s t ∧ SameLogs s t ∧ SameSurround s t) ∧
    (∃ t, exec .txFlag s = .next t ∧ t.txOut = s.txOut ++ [s.cfg.flag] ∧ t.crcTx = s.crcTx ∧ t.txLock = s.txLock ∧
      SameDecoderRegs s t ∧ SameMemory s t ∧ SameLogs s t ∧ SameSurround s t)

/-- R123, R131 (derived by the spec): after `BEGIN t` and the payload, from any state, the running checksum is the block checksum of type
and payload, the lock is held, and the escaped bytes are on the wire. -/
def Obligations.RunningChecksumIsTheBlockChecksum : Prop :=
  ∀ (s : State) (ty : Byte) (p : List Byte),
    ∃ t, runOps (.beginFrame ty :: p.map .writeByte) s = .next t ∧ t.crcTx = crcBlock s.cfg (ty :: p) ∧ t.txLock = true ∧
      t.txOut = s.txOut ++ (ty :: p).flatMap (escaped s.cfg) ∧ SameDecoderRegs s t ∧ SameMemory s t ∧ SameLogs s t

/-- R129, R132 (derived by the spec): `SEND t, p`, from any state, appends exactly the wire format of R80 and leaves the encoder as after
reset. -/
def Obligations.SendEmitsTheWireFormat : Prop :=
  ∀ (s : State) (ty : Byte) (p : List Byte),
    ∃ t, runOps (send ty p) s = .next t ∧
      t.txOut = s.txOut ++ ((ty :: p).flatMap (escaped s.cfg) ++ (escaped s.cfg (BitVec.ofNat 8 (crcBlock s.cfg (ty :: p)).toNat) ++
        (escaped s.cfg (BitVec.ofNat 8 ((crcBlock s.cfg (ty :: p)).toNat / 256)) ++ [s.cfg.flag]))) ∧
      t.crcTx = s.cfg.crcInit ∧ t.txLock = false ∧ SameDecoderRegs s t ∧ SameMemory s t ∧ SameLogs s t ∧ SameSurround s t

/-- R129, R130, R94 (derived by the spec): the bytes `SEND t, p` appends to `tx_out`, from any state, hold `FLAG` exactly once, as the last
byte, and every `ESC` in them is followed by a byte that is neither `ESC` nor `FLAG`. -/
def Obligations.WireFrameHasOneDelimiter : Prop :=
  ∀ (s : State) (ty : Byte) (p : List Byte), s.cfg.Valid →
    ∃ t out, runOps (send ty p) s = .next t ∧ t.txOut = s.txOut ++ out ∧
      (∃ body, out = body ++ [s.cfg.flag] ∧ s.cfg.flag ∉ body) ∧
      ∀ before after, out = before ++ s.cfg.escMark :: after →
        ∃ x rest, after = x :: rest ∧ x ≠ s.cfg.escMark ∧ x ≠ s.cfg.flag

/-! ### Control and status -/

/-- R173 (decided by the spec, D10): `CFGCB en` writes `cb_en` only. -/
def Obligations.ConfigureWritesTheCallbackBitOnly : Prop :=
  ∀ (s : State) (en : Bool), ∃ t, exec (.cfgcb en) s = .next t ∧ t.cbEn = en ∧ t.wr = s.wr ∧ t.esc = s.esc ∧ t.err = s.err ∧
    t.crcErrCnt = s.crcErrCnt ∧ t.totErrCnt = s.totErrCnt ∧ SameMemory s t ∧ SameEncoder s t ∧ SameLogs s t ∧ SameSurround s t

/-- R175 (both values sampled together: decided by the spec, D22; the list of results is the model's, assumption log 16): `RDCNT` returns
(tot_err_cnt, crc_err_cnt) and writes no state. -/
def Obligations.ReadCountersReturnsThePair : Prop :=
  ∀ s : State, ∃ t, exec .rdcnt s = .next t ∧ t.cntLog = s.cntLog ++ [(s.totErrCnt, s.crcErrCnt)] ∧ SameDecoderRegs s t ∧
    SameMemory s t ∧ SameEncoder s t ∧ t.dispatchLog = s.dispatchLog ∧ t.outcomeLog = s.outcomeLog ∧ SameSurround s t

/-- R98 (decided by the spec, D16): the reserved operation codes change no state and produce no output. -/
def Obligations.ReservedCodesChangeNothing : Prop :=
  ∀ s : State, exec .rsvd0 s = .next s ∧ exec .rsvd7 s = .next s

/-! ### The checksum parameter -/

/-- R110 and assumption log 2: every total function of a 16-bit state and a byte is the `crc_update` of some configuration, so a statement
for every configuration is one for every CRC that meets the contract. -/
def Obligations.EveryCrcUpdateIsRepresented : Prop :=
  ∀ f : Crc → Byte → Crc, ∃ a : CrcAlg, ∀ c : Config, c.crcAlg = a → ∀ s b, crcUpdate c s b = f s b

/-! ### Invariants and whole-machine rules -/

/-- R38, R32, R176: reset meets the invariants, for every configuration. -/
def Obligations.ResetMeetsTheInvariants : Prop :=
  ∀ c : Config, (State.resetWith c).Inv ∧ (State.resetWith c).CountsMatch ∧ (State.resetWith c).ReadsMonotone

/-- R32 (a), (b), (d), R26, R33 (derived by the spec in part): every step keeps the cursor in range, a latched error at a full buffer, the
counters in their width and order, the buffer canonical and inside its array. -/
def Obligations.EveryStepKeepsTheInvariant : Prop :=
  ∀ s t : State, s.Inv → step s = .next t → t.Inv

/-- R176, R171 (the sums are derived by the spec; the outcome history is the model's, assumption log 16): every step keeps the counters equal
to the numbers of error outcomes since reset, up to saturation at `2^CNTW - 1` (R33, D8), and the dispatches equal in number to the outcomes `DELIVERED`. -/
def Obligations.EveryStepKeepsCountersEqualToOutcomes : Prop :=
  ∀ s t : State, s.CountsMatch → step s = .next t → t.CountsMatch

/-- R176: every step keeps the results of `RDCNT` since reset from decreasing. -/
def Obligations.EveryStepKeepsCounterReadsMonotone : Prop :=
  ∀ s t : State, s.ReadsMonotone → step s = .next t → t.ReadsMonotone

/-- R32 (c), (d), R21, R157: no step writes outside the content region, and none writes the buffer at all while `err` is set. A step may be
a reset: that it leaves the buffer as it was is the model's choice (DESIGN CHOICE, assumption log 17). The first clause speaks of all
states: with `wr` outside `[PAD, PAD + CAP]`, which no run reaches, it holds by the model's choice (DESIGN CHOICE, assumption log 14). -/
def Obligations.NothingWritesOutsideTheContentRegion : Prop :=
  ∀ s t : State, step s = .next t →
    (∀ a, a < s.cfg.pad ∨ s.cfg.pad + s.cfg.cap ≤ a → Memory.read t.buf a = Memory.read s.buf a) ∧
    (s.Inv → s.err = true → SameMemory s t)

/-- R8, R210 (no parameter changes after reset), R41, R172 (the histories are never altered): every operation keeps the parameters and only
extends the histories. -/
def Obligations.OperationsKeepParametersAndExtendHistories : Prop :=
  ∀ (i : Instr) (s t : State), exec i s = .next t →
    t.cfg = s.cfg ∧ t.pending = s.pending ∧ s.txOut <+: t.txOut ∧ s.dispatchLog <+: t.dispatchLog ∧ s.cntLog <+: t.cntLog ∧
      s.outcomeLog <+: t.outcomeLog

/-- R193, R201, R217, R218: from every state whatever, with a consumer that keeps its duties, every sequence of operations whatever
completes, and so does every step of a valid configuration; the duties hold after it, and the invariant if it held before. The consumer of
the dispatches to come is the model's list (DESIGN CHOICE, assumption log 10), and the operations include byte forms with any operand
(DESIGN CHOICE, assumption log 7). Completion with `wr` outside `[PAD, PAD + CAP]`, which no run reaches, is the model's choice (DESIGN
CHOICE, assumption log 14). -/
def Obligations.EveryOperationSequenceCompletes : Prop :=
  (∀ (ops : List Instr) (s : State), s.ConsumerBehaves →
    ∃ t, runOps ops s = .next t ∧ t.ConsumerBehaves ∧ (s.Inv → t.Inv)) ∧
  ∀ s : State, s.cfg.Valid → s.ConsumerBehaves → ∃ t, step s = .next t ∧ t.ConsumerBehaves

/-- R20 (derived by the spec): no encoder operation touches decoder state, and no decoder operation touches encoder state (unless a consumer
issues encoder operations from inside a dispatch: none does here, assumption log 10). -/
def Obligations.AgentsShareNoState : Prop :=
  ∀ (i : Instr) (s t : State), exec i s = .next t →
    (Instr.onEncoder i = true → SameDecoderRegs s t ∧ SameMemory s t ∧ SameLogs s t) ∧
    (Instr.onDecoder i = true → s.visits = [] → SameEncoder s t)

/-- R58, R12 (derived by the spec): a decoder operation and an encoder operation commute where the consumer of a dispatch issues nothing
and returns (no visit is listed: DESIGN CHOICE, assumption log 10). A dispatch whose consumer acts is left out: encoder operations that it
issues come in between. -/
def Obligations.DecoderAndEncoderOperationsCommute : Prop :=
  ∀ (i j : Instr) (s : State), Instr.onDecoder i = true → Instr.onEncoder j = true → s.visits = [] →
    andThen (exec i s) (exec j) = andThen (exec j s) (exec i)

/-- R34, R36, U10, D21: buffer bytes outside `[PAD, wr)` are unobservable. Two states that differ in nothing else take steps that answer
alike, and the next states again differ in nothing else. -/
def Obligations.StaleBufferBytesAreUnobservable : Prop :=
  ∀ s t : State, SameButStale s t →
    (∀ s', step s = .next s' → ∃ t', step t = .next t' ∧ SameButStale s' t') ∧
    (∀ e, step s = .fault e → step t = .fault e) ∧
    (∀ r, step s = .refused r → step t = .refused r)

/-- R89, R90, R104: what a step other than reset appends to `tx_out` is made of whole units: the escaped bytes of a content byte, and the
two checksum bytes escaped with the raw `FLAG` after them. With no visit listed (the consumer issues nothing: DESIGN CHOICE, assumption log
10) the value `FLAG` comes from an `END` alone (operation code 110, the spec's own, D3). So nothing emits a lone `FLAG`. That no reset comes
inside the step is the model's choice (DESIGN CHOICE, assumption log 20). -/
def Obligations.EmittedBytesAreWholeForms : Prop :=
  ∀ s t : State, step s = .next t → s.pending.head? ≠ some .reset →
    (∃ units : List (List Byte), t.txOut = s.txOut ++ units.flatten ∧
      ∀ u ∈ units, (∃ b, u = escaped s.cfg b) ∨ ∃ lo hi, u = escaped s.cfg lo ++ escaped s.cfg hi ++ [s.cfg.flag]) ∧
    (s.visits = [] → ∀ out, t.txOut = s.txOut ++ out → s.cfg.flag ∈ out →
      ∃ w rest, s.pending = .cmd w :: rest ∧ w.op = 0b110)

/-- R193 with U3, U11, U12: a step refuses only with a broken configuration or with a next visit that lists a `FEED`, and makes no progress
only with a next visit that does not return. These are necessary conditions, and that the step dispatches is not among them. The visits are
the model's (DESIGN CHOICE, assumption log 10). That nothing else stops a step with `wr` outside `[PAD, PAD + CAP]`, which no run reaches, is
the model's choice too (DESIGN CHOICE, assumption log 14). -/
def Obligations.StopsAreForbiddenUsesOnly : Prop :=
  ∀ s : State,
    (∀ r, step s = .refused r →
      (r = .badConfig ∧ ¬ s.cfg.Valid) ∨
      (r = .feedInsideDispatch ∧ ∃ v later c, s.visits = v :: later ∧ Command.feed c ∈ v.ops)) ∧
    ∀ e, step s = .fault e → ∃ v later, s.visits = v :: later ∧ v.returns = false
end

