-- ==== Sys2Proof/Laws/Decode.lean ====
section
/-! SUPPORT. The fields of the words: what is put together comes apart again. -/

namespace Sys2Proof

@[simp] theorem opWord_op (op : BitVec 3) (d : Byte) : (opWord op d).op = op := by
  apply BitVec.eq_of_getLsbD_eq
  intro i hi
  simp only [OpWord.op, opWord, BitVec.getLsbD_extractLsb', hi, decide_true, Bool.true_and]
  exact BitVec.getLsbD_append.trans (by simp)

@[simp] theorem opWord_operand (op : BitVec 3) (d : Byte) : (opWord op d).operand = d := by
  apply BitVec.eq_of_getLsbD_eq
  intro i hi
  simp only [OpWord.operand, opWord, BitVec.getLsbD_extractLsb', hi, decide_true, Bool.true_and]
  exact BitVec.getLsbD_append.trans (by simp [hi])

@[simp] theorem rxPattern_escBit (e : Bool) (b : Byte) : (rxPattern e b).escBit = e := by
  exact BitVec.getLsbD_append.trans (by simp)

@[simp] theorem rxPattern_byte (e : Bool) (b : Byte) : (rxPattern e b).byte = b := by
  apply BitVec.eq_of_getLsbD_eq
  intro i hi
  simp only [RxPattern.byte, rxPattern, BitVec.getLsbD_extractLsb', hi, decide_true, Bool.true_and]
  exact BitVec.getLsbD_append.trans (by simp [hi])

/-- Masking twice gives the byte back (R83). -/
@[simp] theorem xor_mask_twice (b m : Byte) : b ^^^ m ^^^ m = b := by
  rw [BitVec.xor_assoc, BitVec.xor_self, BitVec.xor_zero]

namespace Config

theorem reserved_iff (c : Config) (b : Byte) : c.reserved b = true ↔ b = c.flag ∨ b = c.escMark := by
  simp [Config.reserved]

theorem not_reserved_iff (c : Config) (b : Byte) : c.reserved b = false ↔ b ≠ c.flag ∧ b ≠ c.escMark := by
  simp [Config.reserved]

/-- The masked form of a reserved byte is not reserved (R9). -/
theorem masked_not_reserved {c : Config} (h : c.Valid) {b : Byte} (hb : c.reserved b = true) : c.reserved (b ^^^ c.mask) = false := by
  obtain ⟨-, h0, hx, -⟩ := h
  rw [not_reserved_iff]
  have self : ∀ x : Byte, x ^^^ c.mask ≠ x := by
    intro x e
    apply h0
    have := congrArg (x ^^^ ·) e
    simpa [← BitVec.xor_assoc] using this
  have swap : ∀ x y : Byte, x ^^^ c.mask = y → c.mask = x ^^^ y := by
    intro x y e
    rw [← e, ← BitVec.xor_assoc, BitVec.xor_self, BitVec.zero_xor]
  rcases (reserved_iff c b).mp hb with rfl | rfl
  · exact ⟨self _, fun e => hx (swap _ _ e)⟩
  · exact ⟨fun e => hx (by rw [swap _ _ e, BitVec.xor_comm]), self _⟩

end Config

namespace Machine

@[simp] theorem joinCks_halves (s : Crc) : joinCks (cksHigh s) (cksLow s) = s := by
  apply BitVec.eq_of_getLsbD_eq
  intro i hi
  refine (BitVec.getLsbD_append (x := cksHigh s) (y := cksLow s)).trans ?_
  by_cases h : i < 8
  · simp [cksLow, h]
  · have : i - 8 < 8 := by omega
    simp [cksHigh, h, this, show 8 + (i - 8) = i by omega]

/-- `{hi, lo} = hi * 256 + lo` (R15). -/
theorem joinCks_toNat (hi lo : Byte) : (joinCks hi lo).toNat = hi.toNat * 256 + lo.toNat := by
  have := lo.isLt
  simp only [joinCks, BitVec.toNat_append, Nat.shiftLeft_eq]
  rw [← Nat.shiftLeft_eq, ← Nat.shiftLeft_add_eq_or_of_lt this, Nat.shiftLeft_eq]

theorem cksLow_toNat (s : Crc) : (cksLow s).toNat = s.toNat % 256 := by
  simp [cksLow, BitVec.extractLsb'_toNat]

theorem cksHigh_toNat (s : Crc) : (cksHigh s).toNat = s.toNat / 256 := by
  have := s.isLt
  simp [cksHigh, BitVec.extractLsb'_toNat, Nat.shiftRight_eq_div_pow]
  omega

@[simp] theorem crcBlock_nil (c : Config) : crcBlock c [] = c.crcInit := rfl

/-- The block form takes one more byte by one update (R112). -/
theorem crcBlock_concat (c : Config) (bs : List Byte) (b : Byte) :
    crcBlock c (bs ++ [b]) = crcUpdate c (crcBlock c bs) b := by
  simp [crcBlock]

@[simp] theorem escaped_reserved {c : Config} {b : Byte} (h : c.reserved b = true) :
    escaped c b = [c.escMark, b ^^^ c.mask] := by
  simp [escaped, h]

@[simp] theorem escaped_ordinary {c : Config} {b : Byte} (h : c.reserved b = false) : escaped c b = [b] := by
  simp [escaped, h]

/-- Below `2^CNTW - 1` a counter takes one more (R33). -/
theorem satInc_below {c : Config} {n : Nat} (h : n < 2 ^ c.cntw - 1) : satInc c n = n + 1 := if_pos h

/-- A counter that is not below `2^CNTW - 1` stays (R33). -/
theorem satInc_saturated {c : Config} {n : Nat} (h : ¬ n < 2 ^ c.cntw - 1) : satInc c n = n := if_neg h

theorem satInc_le (c : Config) {n : Nat} (h : n ≤ 2 ^ c.cntw - 1) : satInc c n ≤ 2 ^ c.cntw - 1 := by
  unfold satInc Config.cntMax; split <;> omega

theorem le_satInc (c : Config) (n : Nat) : n ≤ satInc c n := by
  unfold satInc; split <;> omega

theorem satInc_mono (c : Config) {m n : Nat} (h : m ≤ n) : satInc c m ≤ satInc c n := by
  unfold satInc; split <;> split <;> omega

/-- A saturating count of `k` events, and one more. -/
theorem satInc_min (c : Config) (k : Nat) : satInc c (min (2 ^ c.cntw - 1) k) = min (2 ^ c.cntw - 1) (k + 1) := by
  unfold satInc Config.cntMax; split <;> omega

end Machine

end Sys2Proof
end

