-- ==== Sys2Proof/Laws/Memory.lean ====
section
/-! SUPPORT. The laws of the frame buffer: read after write, the canonical form kept, slices. -/

namespace Sys2Proof.Machine

@[simp] theorem Memory.read_nil (a : Nat) : Memory.read [] a = Memory.blank := rfl

theorem Memory.wf_nil : Memory.wf [] := by simp [Memory.wf]

theorem Memory.wf_tail {c : Host.Cell} {m : Memory} (h : Memory.wf (c :: m)) : Memory.wf m := by
  simp only [Memory.wf, List.map_cons, List.pairwise_cons, List.mem_cons, forall_eq_or_imp] at h ⊢
  exact ⟨h.1.2, h.2.2⟩

theorem Memory.wf_head_lt {c d : Host.Cell} {m : Memory} (h : Memory.wf (c :: m)) (hd : d ∈ m) : c.1 < d.1 := by
  simp only [Memory.wf, List.map_cons, List.pairwise_cons] at h
  exact h.1.1 d.1 (List.mem_map_of_mem hd)

/-- An index that no cell has reads as blank. -/
theorem Memory.read_absent {m : Memory} {a : Nat} (h : ∀ c ∈ m, c.1 ≠ a) : Memory.read m a = Memory.blank := by
  induction m with
  | nil => rfl
  | cons c m ih =>
    simp only [List.mem_cons, forall_eq_or_imp] at h
    simp only [Memory.read, if_neg (Ne.symm h.1)]
    exact ih h.2

/-- A write leaves every other index alone. -/
theorem Memory.read_write_other (m : Memory) {a x : Nat} (v : Byte) (h : x ≠ a) :
    Memory.read (Memory.write m a v) x = Memory.read m x := by
  induction m with
  | nil => by_cases hv : v = Memory.blank <;> simp [Memory.write, Memory.read, hv, h]
  | cons c m ih =>
    obtain ⟨b, w⟩ := c
    simp only [Memory.write]
    split_ifs <;> simp_all [Memory.read]

/-- A read after a write to the same index gives the value written. -/
theorem Memory.read_write_same {m : Memory} (hm : Memory.wf m) (a : Nat) (v : Byte) :
    Memory.read (Memory.write m a v) a = v := by
  induction m with
  | nil => by_cases hv : v = Memory.blank <;> simp [Memory.write, Memory.read, hv]
  | cons c m ih =>
    obtain ⟨b, w⟩ := c
    have habove : ∀ d ∈ m, b < d.1 := fun d hd => Memory.wf_head_lt hm hd
    simp only [Memory.write]
    split_ifs with h1 h2 h3 h4
    · rw [h2, Memory.read, if_neg (by omega)]
      exact Memory.read_absent fun d hd => by have := habove d hd; omega
    · simp [Memory.read]
    · rw [h4]
      exact Memory.read_absent fun d hd => by have := habove d hd; omega
    · simp [Memory.read]
    · rw [Memory.read, if_neg h3]
      exact ih (Memory.wf_tail hm)

/-- The cells after a write: those before it at other indices, and the one written. -/
theorem Memory.mem_write {m : Memory} {a : Nat} {v : Byte} {d : Host.Cell} (h : d ∈ Memory.write m a v) :
    d ∈ m ∨ (d = (a, v) ∧ v ≠ Memory.blank) := by
  induction m with
  | nil => by_cases hv : v = Memory.blank <;> simp_all [Memory.write]
  | cons c m ih =>
    obtain ⟨b, w⟩ := c
    simp only [Memory.write] at h
    split_ifs at h <;> simp only [List.mem_cons] at h ⊢ <;> tauto

/-- A write keeps the canonical form. -/
theorem Memory.write_wf {m : Memory} (hm : Memory.wf m) (a : Nat) (v : Byte) : Memory.wf (Memory.write m a v) := by
  induction m with
  | nil => by_cases hv : v = Memory.blank <;> simp [Memory.wf, Memory.write, hv]
  | cons c m ih =>
    obtain ⟨b, w⟩ := c
    have htail := Memory.wf_tail hm
    have habove : ∀ d ∈ m, b < d.1 := fun d hd => Memory.wf_head_lt hm hd
    have hw : w ≠ Memory.blank := hm.2 (b, w) (by simp)
    have cons_wf : ∀ (x : Nat) (u : Byte) (l : Memory), Memory.wf l → u ≠ Memory.blank → (∀ d ∈ l, x < d.1) →
        Memory.wf ((x, u) :: l) := by
      intro x u l hl hu hx
      simp only [Memory.wf, List.map_cons, List.pairwise_cons, List.mem_cons, forall_eq_or_imp, List.mem_map,
        forall_exists_index, and_imp, forall_apply_eq_imp_iff₂]
      exact ⟨⟨hx, hl.1⟩, hu, hl.2⟩
    simp only [Memory.write]
    split_ifs with h1 h2 h3 h4
    · exact hm
    · refine cons_wf a v _ hm h2 ?_
      intro d hd
      simp only [List.mem_cons] at hd
      rcases hd with rfl | hd
      · exact h1
      · have := habove d hd; omega
    · exact htail
    · refine cons_wf a v _ htail h4 ?_
      intro d hd
      have := habove d hd; omega
    · refine cons_wf b w _ (ih htail) hw ?_
      intro d hd
      rcases Memory.mem_write hd with hd | ⟨rfl, -⟩
      · exact habove d hd
      · show b < a
        omega

/-- A write inside a bound keeps every cell inside it. -/
theorem Memory.write_bound {m : Memory} {n a : Nat} {v : Byte} (hm : ∀ c ∈ m, c.1 < n) (ha : a < n) :
    ∀ c ∈ Memory.write m a v, c.1 < n := by
  intro c hc
  rcases Memory.mem_write hc with hc | ⟨rfl, -⟩
  · exact hm c hc
  · exact ha

@[simp] theorem Memory.slice_zero (m : Memory) (a : Nat) : Memory.slice m a 0 = [] := rfl

@[simp] theorem Memory.slice_length (m : Memory) (a n : Nat) : (Memory.slice m a n).length = n := by
  simp [Memory.slice]

theorem Memory.slice_succ (m : Memory) (a n : Nat) :
    Memory.slice m a (n + 1) = Memory.slice m a n ++ [Memory.read m (a + n)] := by
  simp [Memory.slice, List.range_succ]

/-- A slice depends on the bytes in it only. -/
theorem Memory.slice_congr {m m' : Memory} {a n : Nat} (h : ∀ i < n, Memory.read m (a + i) = Memory.read m' (a + i)) :
    Memory.slice m a n = Memory.slice m' a n := by
  simp only [Memory.slice]
  apply List.map_congr_left
  intro i hi
  exact h i (List.mem_range.mp hi)

/-- The slice of a region that holds a list is the list. -/
theorem Memory.slice_eq {m : Memory} {a : Nat} {bs : List Byte} (h : ∀ i (hi : i < bs.length), Memory.read m (a + i) = bs[i]) :
    Memory.slice m a bs.length = bs := by
  apply List.ext_getElem
  · simp
  · intro i h1 h2
    simp [Memory.slice, h i h2]

end Sys2Proof.Machine
end

