-- ==== Sys2Proof/Laws/State.lean ====
section
/-! SUPPORT. One lemma per field per register write of Machine/Ops.lean, so that no proof unfolds a record update. -/

namespace Sys2Proof.Machine

/-! ### setEsc -/

@[simp] theorem State.setEsc_cfg (e : Bool) (s : State) : (s.setEsc e).cfg = s.cfg := rfl
@[simp] theorem State.setEsc_buf (e : Bool) (s : State) : (s.setEsc e).buf = s.buf := rfl
@[simp] theorem State.setEsc_wr (e : Bool) (s : State) : (s.setEsc e).wr = s.wr := rfl
@[simp] theorem State.setEsc_esc (e : Bool) (s : State) : (s.setEsc e).esc = e := rfl
@[simp] theorem State.setEsc_err (e : Bool) (s : State) : (s.setEsc e).err = s.err := rfl
@[simp] theorem State.setEsc_crcErrCnt (e : Bool) (s : State) : (s.setEsc e).crcErrCnt = s.crcErrCnt := rfl
@[simp] theorem State.setEsc_totErrCnt (e : Bool) (s : State) : (s.setEsc e).totErrCnt = s.totErrCnt := rfl
@[simp] theorem State.setEsc_cbEn (e : Bool) (s : State) : (s.setEsc e).cbEn = s.cbEn := rfl
@[simp] theorem State.setEsc_crcTx (e : Bool) (s : State) : (s.setEsc e).crcTx = s.crcTx := rfl
@[simp] theorem State.setEsc_txLock (e : Bool) (s : State) : (s.setEsc e).txLock = s.txLock := rfl
@[simp] theorem State.setEsc_txOut (e : Bool) (s : State) : (s.setEsc e).txOut = s.txOut := rfl
@[simp] theorem State.setEsc_dispatchLog (e : Bool) (s : State) : (s.setEsc e).dispatchLog = s.dispatchLog := rfl
@[simp] theorem State.setEsc_cntLog (e : Bool) (s : State) : (s.setEsc e).cntLog = s.cntLog := rfl
@[simp] theorem State.setEsc_outcomeLog (e : Bool) (s : State) : (s.setEsc e).outcomeLog = s.outcomeLog := rfl
@[simp] theorem State.setEsc_pending (e : Bool) (s : State) : (s.setEsc e).pending = s.pending := rfl
@[simp] theorem State.setEsc_visits (e : Bool) (s : State) : (s.setEsc e).visits = s.visits := rfl

/-! ### latchErr -/

@[simp] theorem State.latchErr_cfg (s : State) : s.latchErr.cfg = s.cfg := rfl
@[simp] theorem State.latchErr_buf (s : State) : s.latchErr.buf = s.buf := rfl
@[simp] theorem State.latchErr_wr (s : State) : s.latchErr.wr = s.wr := rfl
@[simp] theorem State.latchErr_esc (s : State) : s.latchErr.esc = s.esc := rfl
@[simp] theorem State.latchErr_err (s : State) : s.latchErr.err = true := rfl
@[simp] theorem State.latchErr_crcErrCnt (s : State) : s.latchErr.crcErrCnt = s.crcErrCnt := rfl
@[simp] theorem State.latchErr_totErrCnt (s : State) : s.latchErr.totErrCnt = s.totErrCnt := rfl
@[simp] theorem State.latchErr_cbEn (s : State) : s.latchErr.cbEn = s.cbEn := rfl
@[simp] theorem State.latchErr_crcTx (s : State) : s.latchErr.crcTx = s.crcTx := rfl
@[simp] theorem State.latchErr_txLock (s : State) : s.latchErr.txLock = s.txLock := rfl
@[simp] theorem State.latchErr_txOut (s : State) : s.latchErr.txOut = s.txOut := rfl
@[simp] theorem State.latchErr_dispatchLog (s : State) : s.latchErr.dispatchLog = s.dispatchLog := rfl
@[simp] theorem State.latchErr_cntLog (s : State) : s.latchErr.cntLog = s.cntLog := rfl
@[simp] theorem State.latchErr_outcomeLog (s : State) : s.latchErr.outcomeLog = s.outcomeLog := rfl
@[simp] theorem State.latchErr_pending (s : State) : s.latchErr.pending = s.pending := rfl
@[simp] theorem State.latchErr_visits (s : State) : s.latchErr.visits = s.visits := rfl

/-! ### store -/

@[simp] theorem State.store_cfg (v : Byte) (s : State) : (s.store v).cfg = s.cfg := rfl
@[simp] theorem State.store_buf (v : Byte) (s : State) : (s.store v).buf = Memory.write s.buf s.wr v := rfl
@[simp] theorem State.store_wr (v : Byte) (s : State) : (s.store v).wr = s.wr + 1 := rfl
@[simp] theorem State.store_esc (v : Byte) (s : State) : (s.store v).esc = s.esc := rfl
@[simp] theorem State.store_err (v : Byte) (s : State) : (s.store v).err = s.err := rfl
@[simp] theorem State.store_crcErrCnt (v : Byte) (s : State) : (s.store v).crcErrCnt = s.crcErrCnt := rfl
@[simp] theorem State.store_totErrCnt (v : Byte) (s : State) : (s.store v).totErrCnt = s.totErrCnt := rfl
@[simp] theorem State.store_cbEn (v : Byte) (s : State) : (s.store v).cbEn = s.cbEn := rfl
@[simp] theorem State.store_crcTx (v : Byte) (s : State) : (s.store v).crcTx = s.crcTx := rfl
@[simp] theorem State.store_txLock (v : Byte) (s : State) : (s.store v).txLock = s.txLock := rfl
@[simp] theorem State.store_txOut (v : Byte) (s : State) : (s.store v).txOut = s.txOut := rfl
@[simp] theorem State.store_dispatchLog (v : Byte) (s : State) : (s.store v).dispatchLog = s.dispatchLog := rfl
@[simp] theorem State.store_cntLog (v : Byte) (s : State) : (s.store v).cntLog = s.cntLog := rfl
@[simp] theorem State.store_outcomeLog (v : Byte) (s : State) : (s.store v).outcomeLog = s.outcomeLog := rfl
@[simp] theorem State.store_pending (v : Byte) (s : State) : (s.store v).pending = s.pending := rfl
@[simp] theorem State.store_visits (v : Byte) (s : State) : (s.store v).visits = s.visits := rfl

/-! ### setCbEn -/

@[simp] theorem State.setCbEn_cfg (e : Bool) (s : State) : (s.setCbEn e).cfg = s.cfg := rfl
@[simp] theorem State.setCbEn_buf (e : Bool) (s : State) : (s.setCbEn e).buf = s.buf := rfl
@[simp] theorem State.setCbEn_wr (e : Bool) (s : State) : (s.setCbEn e).wr = s.wr := rfl
@[simp] theorem State.setCbEn_esc (e : Bool) (s : State) : (s.setCbEn e).esc = s.esc := rfl
@[simp] theorem State.setCbEn_err (e : Bool) (s : State) : (s.setCbEn e).err = s.err := rfl
@[simp] theorem State.setCbEn_crcErrCnt (e : Bool) (s : State) : (s.setCbEn e).crcErrCnt = s.crcErrCnt := rfl
@[simp] theorem State.setCbEn_totErrCnt (e : Bool) (s : State) : (s.setCbEn e).totErrCnt = s.totErrCnt := rfl
@[simp] theorem State.setCbEn_cbEn (e : Bool) (s : State) : (s.setCbEn e).cbEn = e := rfl
@[simp] theorem State.setCbEn_crcTx (e : Bool) (s : State) : (s.setCbEn e).crcTx = s.crcTx := rfl
@[simp] theorem State.setCbEn_txLock (e : Bool) (s : State) : (s.setCbEn e).txLock = s.txLock := rfl
@[simp] theorem State.setCbEn_txOut (e : Bool) (s : State) : (s.setCbEn e).txOut = s.txOut := rfl
@[simp] theorem State.setCbEn_dispatchLog (e : Bool) (s : State) : (s.setCbEn e).dispatchLog = s.dispatchLog := rfl
@[simp] theorem State.setCbEn_cntLog (e : Bool) (s : State) : (s.setCbEn e).cntLog = s.cntLog := rfl
@[simp] theorem State.setCbEn_outcomeLog (e : Bool) (s : State) : (s.setCbEn e).outcomeLog = s.outcomeLog := rfl
@[simp] theorem State.setCbEn_pending (e : Bool) (s : State) : (s.setCbEn e).pending = s.pending := rfl
@[simp] theorem State.setCbEn_visits (e : Bool) (s : State) : (s.setCbEn e).visits = s.visits := rfl

/-! ### setCrcTx -/

@[simp] theorem State.setCrcTx_cfg (v : Crc) (s : State) : (s.setCrcTx v).cfg = s.cfg := rfl
@[simp] theorem State.setCrcTx_buf (v : Crc) (s : State) : (s.setCrcTx v).buf = s.buf := rfl
@[simp] theorem State.setCrcTx_wr (v : Crc) (s : State) : (s.setCrcTx v).wr = s.wr := rfl
@[simp] theorem State.setCrcTx_esc (v : Crc) (s : State) : (s.setCrcTx v).esc = s.esc := rfl
@[simp] theorem State.setCrcTx_err (v : Crc) (s : State) : (s.setCrcTx v).err = s.err := rfl
@[simp] theorem State.setCrcTx_crcErrCnt (v : Crc) (s : State) : (s.setCrcTx v).crcErrCnt = s.crcErrCnt := rfl
@[simp] theorem State.setCrcTx_totErrCnt (v : Crc) (s : State) : (s.setCrcTx v).totErrCnt = s.totErrCnt := rfl
@[simp] theorem State.setCrcTx_cbEn (v : Crc) (s : State) : (s.setCrcTx v).cbEn = s.cbEn := rfl
@[simp] theorem State.setCrcTx_crcTx (v : Crc) (s : State) : (s.setCrcTx v).crcTx = v := rfl
@[simp] theorem State.setCrcTx_txLock (v : Crc) (s : State) : (s.setCrcTx v).txLock = s.txLock := rfl
@[simp] theorem State.setCrcTx_txOut (v : Crc) (s : State) : (s.setCrcTx v).txOut = s.txOut := rfl
@[simp] theorem State.setCrcTx_dispatchLog (v : Crc) (s : State) : (s.setCrcTx v).dispatchLog = s.dispatchLog := rfl
@[simp] theorem State.setCrcTx_cntLog (v : Crc) (s : State) : (s.setCrcTx v).cntLog = s.cntLog := rfl
@[simp] theorem State.setCrcTx_outcomeLog (v : Crc) (s : State) : (s.setCrcTx v).outcomeLog = s.outcomeLog := rfl
@[simp] theorem State.setCrcTx_pending (v : Crc) (s : State) : (s.setCrcTx v).pending = s.pending := rfl
@[simp] theorem State.setCrcTx_visits (v : Crc) (s : State) : (s.setCrcTx v).visits = s.visits := rfl

/-! ### setTxLock -/

@[simp] theorem State.setTxLock_cfg (l : Bool) (s : State) : (s.setTxLock l).cfg = s.cfg := rfl
@[simp] theorem State.setTxLock_buf (l : Bool) (s : State) : (s.setTxLock l).buf = s.buf := rfl
@[simp] theorem State.setTxLock_wr (l : Bool) (s : State) : (s.setTxLock l).wr = s.wr := rfl
@[simp] theorem State.setTxLock_esc (l : Bool) (s : State) : (s.setTxLock l).esc = s.esc := rfl
@[simp] theorem State.setTxLock_err (l : Bool) (s : State) : (s.setTxLock l).err = s.err := rfl
@[simp] theorem State.setTxLock_crcErrCnt (l : Bool) (s : State) : (s.setTxLock l).crcErrCnt = s.crcErrCnt := rfl
@[simp] theorem State.setTxLock_totErrCnt (l : Bool) (s : State) : (s.setTxLock l).totErrCnt = s.totErrCnt := rfl
@[simp] theorem State.setTxLock_cbEn (l : Bool) (s : State) : (s.setTxLock l).cbEn = s.cbEn := rfl
@[simp] theorem State.setTxLock_crcTx (l : Bool) (s : State) : (s.setTxLock l).crcTx = s.crcTx := rfl
@[simp] theorem State.setTxLock_txLock (l : Bool) (s : State) : (s.setTxLock l).txLock = l := rfl
@[simp] theorem State.setTxLock_txOut (l : Bool) (s : State) : (s.setTxLock l).txOut = s.txOut := rfl
@[simp] theorem State.setTxLock_dispatchLog (l : Bool) (s : State) : (s.setTxLock l).dispatchLog = s.dispatchLog := rfl
@[simp] theorem State.setTxLock_cntLog (l : Bool) (s : State) : (s.setTxLock l).cntLog = s.cntLog := rfl
@[simp] theorem State.setTxLock_outcomeLog (l : Bool) (s : State) : (s.setTxLock l).outcomeLog = s.outcomeLog := rfl
@[simp] theorem State.setTxLock_pending (l : Bool) (s : State) : (s.setTxLock l).pending = s.pending := rfl
@[simp] theorem State.setTxLock_visits (l : Bool) (s : State) : (s.setTxLock l).visits = s.visits := rfl

/-! ### emit -/

@[simp] theorem State.emit_cfg (v : Byte) (s : State) : (s.emit v).cfg = s.cfg := rfl
@[simp] theorem State.emit_buf (v : Byte) (s : State) : (s.emit v).buf = s.buf := rfl
@[simp] theorem State.emit_wr (v : Byte) (s : State) : (s.emit v).wr = s.wr := rfl
@[simp] theorem State.emit_esc (v : Byte) (s : State) : (s.emit v).esc = s.esc := rfl
@[simp] theorem State.emit_err (v : Byte) (s : State) : (s.emit v).err = s.err := rfl
@[simp] theorem State.emit_crcErrCnt (v : Byte) (s : State) : (s.emit v).crcErrCnt = s.crcErrCnt := rfl
@[simp] theorem State.emit_totErrCnt (v : Byte) (s : State) : (s.emit v).totErrCnt = s.totErrCnt := rfl
@[simp] theorem State.emit_cbEn (v : Byte) (s : State) : (s.emit v).cbEn = s.cbEn := rfl
@[simp] theorem State.emit_crcTx (v : Byte) (s : State) : (s.emit v).crcTx = s.crcTx := rfl
@[simp] theorem State.emit_txLock (v : Byte) (s : State) : (s.emit v).txLock = s.txLock := rfl
@[simp] theorem State.emit_txOut (v : Byte) (s : State) : (s.emit v).txOut = s.txOut ++ [v] := rfl
@[simp] theorem State.emit_dispatchLog (v : Byte) (s : State) : (s.emit v).dispatchLog = s.dispatchLog := rfl
@[simp] theorem State.emit_cntLog (v : Byte) (s : State) : (s.emit v).cntLog = s.cntLog := rfl
@[simp] theorem State.emit_outcomeLog (v : Byte) (s : State) : (s.emit v).outcomeLog = s.outcomeLog := rfl
@[simp] theorem State.emit_pending (v : Byte) (s : State) : (s.emit v).pending = s.pending := rfl
@[simp] theorem State.emit_visits (v : Byte) (s : State) : (s.emit v).visits = s.visits := rfl

/-! ### countTot -/

@[simp] theorem State.countTot_cfg (s : State) : s.countTot.cfg = s.cfg := rfl
@[simp] theorem State.countTot_buf (s : State) : s.countTot.buf = s.buf := rfl
@[simp] theorem State.countTot_wr (s : State) : s.countTot.wr = s.wr := rfl
@[simp] theorem State.countTot_esc (s : State) : s.countTot.esc = s.esc := rfl
@[simp] theorem State.countTot_err (s : State) : s.countTot.err = s.err := rfl
@[simp] theorem State.countTot_crcErrCnt (s : State) : s.countTot.crcErrCnt = s.crcErrCnt := rfl
@[simp] theorem State.countTot_totErrCnt (s : State) : s.countTot.totErrCnt = satInc s.cfg s.totErrCnt := rfl
@[simp] theorem State.countTot_cbEn (s : State) : s.countTot.cbEn = s.cbEn := rfl
@[simp] theorem State.countTot_crcTx (s : State) : s.countTot.crcTx = s.crcTx := rfl
@[simp] theorem State.countTot_txLock (s : State) : s.countTot.txLock = s.txLock := rfl
@[simp] theorem State.countTot_txOut (s : State) : s.countTot.txOut = s.txOut := rfl
@[simp] theorem State.countTot_dispatchLog (s : State) : s.countTot.dispatchLog = s.dispatchLog := rfl
@[simp] theorem State.countTot_cntLog (s : State) : s.countTot.cntLog = s.cntLog := rfl
@[simp] theorem State.countTot_outcomeLog (s : State) : s.countTot.outcomeLog = s.outcomeLog := rfl
@[simp] theorem State.countTot_pending (s : State) : s.countTot.pending = s.pending := rfl
@[simp] theorem State.countTot_visits (s : State) : s.countTot.visits = s.visits := rfl

/-! ### countCrc -/

@[simp] theorem State.countCrc_cfg (s : State) : s.countCrc.cfg = s.cfg := rfl
@[simp] theorem State.countCrc_buf (s : State) : s.countCrc.buf = s.buf := rfl
@[simp] theorem State.countCrc_wr (s : State) : s.countCrc.wr = s.wr := rfl
@[simp] theorem State.countCrc_esc (s : State) : s.countCrc.esc = s.esc := rfl
@[simp] theorem State.countCrc_err (s : State) : s.countCrc.err = s.err := rfl
@[simp] theorem State.countCrc_crcErrCnt (s : State) : s.countCrc.crcErrCnt = satInc s.cfg s.crcErrCnt := rfl
@[simp] theorem State.countCrc_totErrCnt (s : State) : s.countCrc.totErrCnt = s.totErrCnt := rfl
@[simp] theorem State.countCrc_cbEn (s : State) : s.countCrc.cbEn = s.cbEn := rfl
@[simp] theorem State.countCrc_crcTx (s : State) : s.countCrc.crcTx = s.crcTx := rfl
@[simp] theorem State.countCrc_txLock (s : State) : s.countCrc.txLock = s.txLock := rfl
@[simp] theorem State.countCrc_txOut (s : State) : s.countCrc.txOut = s.txOut := rfl
@[simp] theorem State.countCrc_dispatchLog (s : State) : s.countCrc.dispatchLog = s.dispatchLog := rfl
@[simp] theorem State.countCrc_cntLog (s : State) : s.countCrc.cntLog = s.cntLog := rfl
@[simp] theorem State.countCrc_outcomeLog (s : State) : s.countCrc.outcomeLog = s.outcomeLog := rfl
@[simp] theorem State.countCrc_pending (s : State) : s.countCrc.pending = s.pending := rfl
@[simp] theorem State.countCrc_visits (s : State) : s.countCrc.visits = s.visits := rfl

/-! ### recordOutcome -/

@[simp] theorem State.recordOutcome_cfg (o : FrameOutcome) (s : State) : (s.recordOutcome o).cfg = s.cfg := rfl
@[simp] theorem State.recordOutcome_buf (o : FrameOutcome) (s : State) : (s.recordOutcome o).buf = s.buf := rfl
@[simp] theorem State.recordOutcome_wr (o : FrameOutcome) (s : State) : (s.recordOutcome o).wr = s.wr := rfl
@[simp] theorem State.recordOutcome_esc (o : FrameOutcome) (s : State) : (s.recordOutcome o).esc = s.esc := rfl
@[simp] theorem State.recordOutcome_err (o : FrameOutcome) (s : State) : (s.recordOutcome o).err = s.err := rfl
@[simp] theorem State.recordOutcome_crcErrCnt (o : FrameOutcome) (s : State) : (s.recordOutcome o).crcErrCnt = s.crcErrCnt := rfl
@[simp] theorem State.recordOutcome_totErrCnt (o : FrameOutcome) (s : State) : (s.recordOutcome o).totErrCnt = s.totErrCnt := rfl
@[simp] theorem State.recordOutcome_cbEn (o : FrameOutcome) (s : State) : (s.recordOutcome o).cbEn = s.cbEn := rfl
@[simp] theorem State.recordOutcome_crcTx (o : FrameOutcome) (s : State) : (s.recordOutcome o).crcTx = s.crcTx := rfl
@[simp] theorem State.recordOutcome_txLock (o : FrameOutcome) (s : State) : (s.recordOutcome o).txLock = s.txLock := rfl
@[simp] theorem State.recordOutcome_txOut (o : FrameOutcome) (s : State) : (s.recordOutcome o).txOut = s.txOut := rfl
@[simp] theorem State.recordOutcome_dispatchLog (o : FrameOutcome) (s : State) : (s.recordOutcome o).dispatchLog = s.dispatchLog := rfl
@[simp] theorem State.recordOutcome_cntLog (o : FrameOutcome) (s : State) : (s.recordOutcome o).cntLog = s.cntLog := rfl
@[simp] theorem State.recordOutcome_outcomeLog (o : FrameOutcome) (s : State) : (s.recordOutcome o).outcomeLog = s.outcomeLog ++ [o] := rfl
@[simp] theorem State.recordOutcome_pending (o : FrameOutcome) (s : State) : (s.recordOutcome o).pending = s.pending := rfl
@[simp] theorem State.recordOutcome_visits (o : FrameOutcome) (s : State) : (s.recordOutcome o).visits = s.visits := rfl

/-! ### dispatch -/

@[simp] theorem State.dispatch_cfg (m : Message) (s : State) : (s.dispatch m).cfg = s.cfg := rfl
@[simp] theorem State.dispatch_buf (m : Message) (s : State) : (s.dispatch m).buf = s.buf := rfl
@[simp] theorem State.dispatch_wr (m : Message) (s : State) : (s.dispatch m).wr = s.wr := rfl
@[simp] theorem State.dispatch_esc (m : Message) (s : State) : (s.dispatch m).esc = s.esc := rfl
@[simp] theorem State.dispatch_err (m : Message) (s : State) : (s.dispatch m).err = s.err := rfl
@[simp] theorem State.dispatch_crcErrCnt (m : Message) (s : State) : (s.dispatch m).crcErrCnt = s.crcErrCnt := rfl
@[simp] theorem State.dispatch_totErrCnt (m : Message) (s : State) : (s.dispatch m).totErrCnt = s.totErrCnt := rfl
@[simp] theorem State.dispatch_cbEn (m : Message) (s : State) : (s.dispatch m).cbEn = s.cbEn := rfl
@[simp] theorem State.dispatch_crcTx (m : Message) (s : State) : (s.dispatch m).crcTx = s.crcTx := rfl
@[simp] theorem State.dispatch_txLock (m : Message) (s : State) : (s.dispatch m).txLock = s.txLock := rfl
@[simp] theorem State.dispatch_txOut (m : Message) (s : State) : (s.dispatch m).txOut = s.txOut := rfl
@[simp] theorem State.dispatch_dispatchLog (m : Message) (s : State) : (s.dispatch m).dispatchLog = s.dispatchLog ++ [m] := rfl
@[simp] theorem State.dispatch_cntLog (m : Message) (s : State) : (s.dispatch m).cntLog = s.cntLog := rfl
@[simp] theorem State.dispatch_outcomeLog (m : Message) (s : State) : (s.dispatch m).outcomeLog = s.outcomeLog := rfl
@[simp] theorem State.dispatch_pending (m : Message) (s : State) : (s.dispatch m).pending = s.pending := rfl
@[simp] theorem State.dispatch_visits (m : Message) (s : State) : (s.dispatch m).visits = s.visits := rfl

/-! ### returnCounters -/

@[simp] theorem State.returnCounters_cfg (s : State) : s.returnCounters.cfg = s.cfg := rfl
@[simp] theorem State.returnCounters_buf (s : State) : s.returnCounters.buf = s.buf := rfl
@[simp] theorem State.returnCounters_wr (s : State) : s.returnCounters.wr = s.wr := rfl
@[simp] theorem State.returnCounters_esc (s : State) : s.returnCounters.esc = s.esc := rfl
@[simp] theorem State.returnCounters_err (s : State) : s.returnCounters.err = s.err := rfl
@[simp] theorem State.returnCounters_crcErrCnt (s : State) : s.returnCounters.crcErrCnt = s.crcErrCnt := rfl
@[simp] theorem State.returnCounters_totErrCnt (s : State) : s.returnCounters.totErrCnt = s.totErrCnt := rfl
@[simp] theorem State.returnCounters_cbEn (s : State) : s.returnCounters.cbEn = s.cbEn := rfl
@[simp] theorem State.returnCounters_crcTx (s : State) : s.returnCounters.crcTx = s.crcTx := rfl
@[simp] theorem State.returnCounters_txLock (s : State) : s.returnCounters.txLock = s.txLock := rfl
@[simp] theorem State.returnCounters_txOut (s : State) : s.returnCounters.txOut = s.txOut := rfl
@[simp] theorem State.returnCounters_dispatchLog (s : State) : s.returnCounters.dispatchLog = s.dispatchLog := rfl
@[simp] theorem State.returnCounters_cntLog (s : State) : s.returnCounters.cntLog = s.cntLog ++ [(s.totErrCnt, s.crcErrCnt)] := rfl
@[simp] theorem State.returnCounters_outcomeLog (s : State) : s.returnCounters.outcomeLog = s.outcomeLog := rfl
@[simp] theorem State.returnCounters_pending (s : State) : s.returnCounters.pending = s.pending := rfl
@[simp] theorem State.returnCounters_visits (s : State) : s.returnCounters.visits = s.visits := rfl

/-! ### setPending -/

@[simp] theorem State.setPending_cfg (p : List Input) (s : State) : (s.setPending p).cfg = s.cfg := rfl
@[simp] theorem State.setPending_buf (p : List Input) (s : State) : (s.setPending p).buf = s.buf := rfl
@[simp] theorem State.setPending_wr (p : List Input) (s : State) : (s.setPending p).wr = s.wr := rfl
@[simp] theorem State.setPending_esc (p : List Input) (s : State) : (s.setPending p).esc = s.esc := rfl
@[simp] theorem State.setPending_err (p : List Input) (s : State) : (s.setPending p).err = s.err := rfl
@[simp] theorem State.setPending_crcErrCnt (p : List Input) (s : State) : (s.setPending p).crcErrCnt = s.crcErrCnt := rfl
@[simp] theorem State.setPending_totErrCnt (p : List Input) (s : State) : (s.setPending p).totErrCnt = s.totErrCnt := rfl
@[simp] theorem State.setPending_cbEn (p : List Input) (s : State) : (s.setPending p).cbEn = s.cbEn := rfl
@[simp] theorem State.setPending_crcTx (p : List Input) (s : State) : (s.setPending p).crcTx = s.crcTx := rfl
@[simp] theorem State.setPending_txLock (p : List Input) (s : State) : (s.setPending p).txLock = s.txLock := rfl
@[simp] theorem State.setPending_txOut (p : List Input) (s : State) : (s.setPending p).txOut = s.txOut := rfl
@[simp] theorem State.setPending_dispatchLog (p : List Input) (s : State) : (s.setPending p).dispatchLog = s.dispatchLog := rfl
@[simp] theorem State.setPending_cntLog (p : List Input) (s : State) : (s.setPending p).cntLog = s.cntLog := rfl
@[simp] theorem State.setPending_outcomeLog (p : List Input) (s : State) : (s.setPending p).outcomeLog = s.outcomeLog := rfl
@[simp] theorem State.setPending_pending (p : List Input) (s : State) : (s.setPending p).pending = p := rfl
@[simp] theorem State.setPending_visits (p : List Input) (s : State) : (s.setPending p).visits = s.visits := rfl

/-! ### setVisits -/

@[simp] theorem State.setVisits_cfg (v : List Visit) (s : State) : (s.setVisits v).cfg = s.cfg := rfl
@[simp] theorem State.setVisits_buf (v : List Visit) (s : State) : (s.setVisits v).buf = s.buf := rfl
@[simp] theorem State.setVisits_wr (v : List Visit) (s : State) : (s.setVisits v).wr = s.wr := rfl
@[simp] theorem State.setVisits_esc (v : List Visit) (s : State) : (s.setVisits v).esc = s.esc := rfl
@[simp] theorem State.setVisits_err (v : List Visit) (s : State) : (s.setVisits v).err = s.err := rfl
@[simp] theorem State.setVisits_crcErrCnt (v : List Visit) (s : State) : (s.setVisits v).crcErrCnt = s.crcErrCnt := rfl
@[simp] theorem State.setVisits_totErrCnt (v : List Visit) (s : State) : (s.setVisits v).totErrCnt = s.totErrCnt := rfl
@[simp] theorem State.setVisits_cbEn (v : List Visit) (s : State) : (s.setVisits v).cbEn = s.cbEn := rfl
@[simp] theorem State.setVisits_crcTx (v : List Visit) (s : State) : (s.setVisits v).crcTx = s.crcTx := rfl
@[simp] theorem State.setVisits_txLock (v : List Visit) (s : State) : (s.setVisits v).txLock = s.txLock := rfl
@[simp] theorem State.setVisits_txOut (v : List Visit) (s : State) : (s.setVisits v).txOut = s.txOut := rfl
@[simp] theorem State.setVisits_dispatchLog (v : List Visit) (s : State) : (s.setVisits v).dispatchLog = s.dispatchLog := rfl
@[simp] theorem State.setVisits_cntLog (v : List Visit) (s : State) : (s.setVisits v).cntLog = s.cntLog := rfl
@[simp] theorem State.setVisits_outcomeLog (v : List Visit) (s : State) : (s.setVisits v).outcomeLog = s.outcomeLog := rfl
@[simp] theorem State.setVisits_pending (v : List Visit) (s : State) : (s.setVisits v).pending = s.pending := rfl
@[simp] theorem State.setVisits_visits (v : List Visit) (s : State) : (s.setVisits v).visits = v := rfl

/-! ### boundaryReset -/

@[simp] theorem State.boundaryReset_cfg (s : State) : s.boundaryReset.cfg = s.cfg := rfl
@[simp] theorem State.boundaryReset_buf (s : State) : s.boundaryReset.buf = s.buf := rfl
@[simp] theorem State.boundaryReset_wr (s : State) : s.boundaryReset.wr = s.cfg.pad := rfl
@[simp] theorem State.boundaryReset_esc (s : State) : s.boundaryReset.esc = false := rfl
@[simp] theorem State.boundaryReset_err (s : State) : s.boundaryReset.err = false := rfl
@[simp] theorem State.boundaryReset_crcErrCnt (s : State) : s.boundaryReset.crcErrCnt = s.crcErrCnt := rfl
@[simp] theorem State.boundaryReset_totErrCnt (s : State) : s.boundaryReset.totErrCnt = s.totErrCnt := rfl
@[simp] theorem State.boundaryReset_cbEn (s : State) : s.boundaryReset.cbEn = s.cbEn := rfl
@[simp] theorem State.boundaryReset_crcTx (s : State) : s.boundaryReset.crcTx = s.crcTx := rfl
@[simp] theorem State.boundaryReset_txLock (s : State) : s.boundaryReset.txLock = s.txLock := rfl
@[simp] theorem State.boundaryReset_txOut (s : State) : s.boundaryReset.txOut = s.txOut := rfl
@[simp] theorem State.boundaryReset_dispatchLog (s : State) : s.boundaryReset.dispatchLog = s.dispatchLog := rfl
@[simp] theorem State.boundaryReset_cntLog (s : State) : s.boundaryReset.cntLog = s.cntLog := rfl
@[simp] theorem State.boundaryReset_outcomeLog (s : State) : s.boundaryReset.outcomeLog = s.outcomeLog := rfl
@[simp] theorem State.boundaryReset_pending (s : State) : s.boundaryReset.pending = s.pending := rfl
@[simp] theorem State.boundaryReset_visits (s : State) : s.boundaryReset.visits = s.visits := rfl

/-! ### resetEvent -/

@[simp] theorem State.resetEvent_cfg (s : State) : s.resetEvent.cfg = s.cfg := rfl
@[simp] theorem State.resetEvent_buf (s : State) : s.resetEvent.buf = s.buf := rfl
@[simp] theorem State.resetEvent_wr (s : State) : s.resetEvent.wr = s.cfg.pad := rfl
@[simp] theorem State.resetEvent_esc (s : State) : s.resetEvent.esc = false := rfl
@[simp] theorem State.resetEvent_err (s : State) : s.resetEvent.err = false := rfl
@[simp] theorem State.resetEvent_crcErrCnt (s : State) : s.resetEvent.crcErrCnt = 0 := rfl
@[simp] theorem State.resetEvent_totErrCnt (s : State) : s.resetEvent.totErrCnt = 0 := rfl
@[simp] theorem State.resetEvent_cbEn (s : State) : s.resetEvent.cbEn = false := rfl
@[simp] theorem State.resetEvent_crcTx (s : State) : s.resetEvent.crcTx = s.cfg.crcInit := rfl
@[simp] theorem State.resetEvent_txLock (s : State) : s.resetEvent.txLock = false := rfl
@[simp] theorem State.resetEvent_txOut (s : State) : s.resetEvent.txOut = [] := rfl
@[simp] theorem State.resetEvent_dispatchLog (s : State) : s.resetEvent.dispatchLog = [] := rfl
@[simp] theorem State.resetEvent_cntLog (s : State) : s.resetEvent.cntLog = [] := rfl
@[simp] theorem State.resetEvent_outcomeLog (s : State) : s.resetEvent.outcomeLog = [] := rfl
@[simp] theorem State.resetEvent_pending (s : State) : s.resetEvent.pending = s.pending := rfl
@[simp] theorem State.resetEvent_visits (s : State) : s.resetEvent.visits = s.visits := rfl

/-! ### resetWith -/

@[simp] theorem State.resetWith_cfg (c : Config) : (State.resetWith c).cfg = c := rfl
@[simp] theorem State.resetWith_buf (c : Config) : (State.resetWith c).buf = [] := rfl
@[simp] theorem State.resetWith_wr (c : Config) : (State.resetWith c).wr = c.pad := rfl
@[simp] theorem State.resetWith_esc (c : Config) : (State.resetWith c).esc = false := rfl
@[simp] theorem State.resetWith_err (c : Config) : (State.resetWith c).err = false := rfl
@[simp] theorem State.resetWith_crcErrCnt (c : Config) : (State.resetWith c).crcErrCnt = 0 := rfl
@[simp] theorem State.resetWith_totErrCnt (c : Config) : (State.resetWith c).totErrCnt = 0 := rfl
@[simp] theorem State.resetWith_cbEn (c : Config) : (State.resetWith c).cbEn = false := rfl
@[simp] theorem State.resetWith_crcTx (c : Config) : (State.resetWith c).crcTx = c.crcInit := rfl
@[simp] theorem State.resetWith_txLock (c : Config) : (State.resetWith c).txLock = false := rfl
@[simp] theorem State.resetWith_txOut (c : Config) : (State.resetWith c).txOut = [] := rfl
@[simp] theorem State.resetWith_dispatchLog (c : Config) : (State.resetWith c).dispatchLog = [] := rfl
@[simp] theorem State.resetWith_cntLog (c : Config) : (State.resetWith c).cntLog = [] := rfl
@[simp] theorem State.resetWith_outcomeLog (c : Config) : (State.resetWith c).outcomeLog = [] := rfl
@[simp] theorem State.resetWith_pending (c : Config) : (State.resetWith c).pending = [] := rfl
@[simp] theorem State.resetWith_visits (c : Config) : (State.resetWith c).visits = [] := rfl

end Sys2Proof.Machine
end

