-- ==== Sys2Proof/Laws/Ops.lean ====
section
/-! SUPPORT. One law for each shared operation of Machine/Ops.lean: PUT, PUSH, the outcome of a boundary, validation. -/

namespace Sys2Proof.Machine

/-! ### Sequencing -/

@[simp] theorem andThen_next (s : State) (f : State → Result) : andThen (.next s) f = f s := rfl
@[simp] theorem andThen_fault (e : Fault) (f : State → Result) : andThen (.fault e) f = .fault e := rfl
@[simp] theorem andThen_refused (e : Refusal) (f : State → Result) : andThen (.refused e) f = .refused e := rfl

theorem andThen_eq_next {r : Result} {f : State → Result} {t : State} :
    andThen r f = .next t ↔ ∃ s, r = .next s ∧ f s = .next t := by
  cases r <;> simp

theorem andThen_assoc (r : Result) (f g : State → Result) :
    andThen (andThen r f) g = andThen r fun s => andThen (f s) g := by
  cases r <;> rfl

/-! ### PUT -/

@[simp] theorem State.put_txOut (b : Byte) (s : State) : (s.put b).txOut = s.txOut ++ escaped s.cfg b := by
  unfold State.put escaped
  split <;> simp [State.emitEscseq, State.emitLit, State.account]

@[simp] theorem State.put_crcTx (b : Byte) (s : State) : (s.put b).crcTx = crcUpdate s.cfg s.crcTx b := by
  unfold State.put
  split <;> simp [State.emitEscseq, State.emitLit, State.account]

/-- `PUT` writes `tx_out` and `crc_tx` and nothing else. -/
theorem State.put_eq (b : Byte) (s : State) :
    s.put b = { s with txOut := s.txOut ++ escaped s.cfg b, crcTx := crcUpdate s.cfg s.crcTx b } := by
  unfold State.put escaped
  split <;> simp [State.emitEscseq, State.emitLit, State.account, State.emit, State.setCrcTx]

@[simp] theorem State.put_cfg (b : Byte) (s : State) : (s.put b).cfg = s.cfg := by simp [State.put_eq]
@[simp] theorem State.put_buf (b : Byte) (s : State) : (s.put b).buf = s.buf := by simp [State.put_eq]
@[simp] theorem State.put_wr (b : Byte) (s : State) : (s.put b).wr = s.wr := by simp [State.put_eq]
@[simp] theorem State.put_esc (b : Byte) (s : State) : (s.put b).esc = s.esc := by simp [State.put_eq]
@[simp] theorem State.put_err (b : Byte) (s : State) : (s.put b).err = s.err := by simp [State.put_eq]
@[simp] theorem State.put_crcErrCnt (b : Byte) (s : State) : (s.put b).crcErrCnt = s.crcErrCnt := by simp [State.put_eq]
@[simp] theorem State.put_totErrCnt (b : Byte) (s : State) : (s.put b).totErrCnt = s.totErrCnt := by simp [State.put_eq]
@[simp] theorem State.put_cbEn (b : Byte) (s : State) : (s.put b).cbEn = s.cbEn := by simp [State.put_eq]
@[simp] theorem State.put_txLock (b : Byte) (s : State) : (s.put b).txLock = s.txLock := by simp [State.put_eq]
@[simp] theorem State.put_dispatchLog (b : Byte) (s : State) : (s.put b).dispatchLog = s.dispatchLog := by simp [State.put_eq]
@[simp] theorem State.put_cntLog (b : Byte) (s : State) : (s.put b).cntLog = s.cntLog := by simp [State.put_eq]
@[simp] theorem State.put_outcomeLog (b : Byte) (s : State) : (s.put b).outcomeLog = s.outcomeLog := by simp [State.put_eq]
@[simp] theorem State.put_pending (b : Byte) (s : State) : (s.put b).pending = s.pending := by simp [State.put_eq]
@[simp] theorem State.put_visits (b : Byte) (s : State) : (s.put b).visits = s.visits := by simp [State.put_eq]

/-! ### PUSH -/

theorem push_full {s : State} (v : Byte) (h : s.wr = s.cfg.bufEnd) : push v s = .next s.latchErr := by
  simp [push, h]

theorem push_noRoom {s : State} (v : Byte) (h : ¬ (s.cfg.pad ≤ s.wr ∧ s.wr < s.cfg.bufEnd)) : push v s = .next s.latchErr := if_neg h

theorem push_room {s : State} (v : Byte) (h1 : s.cfg.pad ≤ s.wr) (h2 : s.wr < s.cfg.bufEnd) : push v s = .next (s.store v) := if_pos ⟨h1, h2⟩

/-- What a buffer write attempt that answers a next state has done. -/
theorem push_next {s t : State} {v : Byte} (h : push v s = .next t) :
    (¬ (s.cfg.pad ≤ s.wr ∧ s.wr < s.cfg.bufEnd) ∧ t = s.latchErr) ∨ (s.cfg.pad ≤ s.wr ∧ s.wr < s.cfg.bufEnd ∧ t = s.store v) := by
  unfold push at h
  split_ifs at h with h1
  · exact .inr ⟨h1.1, h1.2, (Host.Outcome.next.inj h).symm⟩
  · exact .inl ⟨h1, (Host.Outcome.next.inj h).symm⟩

theorem push_not_refused (s : State) (v : Byte) (r : Refusal) : push v s ≠ .refused r := by
  unfold push
  split_ifs <;> simp

/-- A buffer write attempt always completes. -/
theorem push_completes (v : Byte) (s : State) : ∃ t, push v s = .next t := by
  unfold push
  split_ifs <;> exact ⟨_, rfl⟩

/-! ### Validation -/

@[simp] theorem State.countOutcome_cfg (o : FrameOutcome) (s : State) : (s.countOutcome o).cfg = s.cfg := by cases o <;> rfl
@[simp] theorem State.countOutcome_buf (o : FrameOutcome) (s : State) : (s.countOutcome o).buf = s.buf := by cases o <;> rfl
@[simp] theorem State.countOutcome_wr (o : FrameOutcome) (s : State) : (s.countOutcome o).wr = s.wr := by cases o <;> rfl
@[simp] theorem State.countOutcome_esc (o : FrameOutcome) (s : State) : (s.countOutcome o).esc = s.esc := by cases o <;> rfl
@[simp] theorem State.countOutcome_err (o : FrameOutcome) (s : State) : (s.countOutcome o).err = s.err := by cases o <;> rfl
@[simp] theorem State.countOutcome_crcErrCnt (o : FrameOutcome) (s : State) : (s.countOutcome o).crcErrCnt = if o.isCrcError then satInc s.cfg s.crcErrCnt else s.crcErrCnt := by cases o <;> rfl
@[simp] theorem State.countOutcome_totErrCnt (o : FrameOutcome) (s : State) : (s.countOutcome o).totErrCnt = if o.isError then satInc s.cfg s.totErrCnt else s.totErrCnt := by cases o <;> rfl
@[simp] theorem State.countOutcome_cbEn (o : FrameOutcome) (s : State) : (s.countOutcome o).cbEn = s.cbEn := by cases o <;> rfl
@[simp] theorem State.countOutcome_crcTx (o : FrameOutcome) (s : State) : (s.countOutcome o).crcTx = s.crcTx := by cases o <;> rfl
@[simp] theorem State.countOutcome_txLock (o : FrameOutcome) (s : State) : (s.countOutcome o).txLock = s.txLock := by cases o <;> rfl
@[simp] theorem State.countOutcome_txOut (o : FrameOutcome) (s : State) : (s.countOutcome o).txOut = s.txOut := by cases o <;> rfl
@[simp] theorem State.countOutcome_dispatchLog (o : FrameOutcome) (s : State) : (s.countOutcome o).dispatchLog = s.dispatchLog := by cases o <;> rfl
@[simp] theorem State.countOutcome_cntLog (o : FrameOutcome) (s : State) : (s.countOutcome o).cntLog = s.cntLog := by cases o <;> rfl
@[simp] theorem State.countOutcome_outcomeLog (o : FrameOutcome) (s : State) : (s.countOutcome o).outcomeLog = s.outcomeLog := by cases o <;> rfl
@[simp] theorem State.countOutcome_pending (o : FrameOutcome) (s : State) : (s.countOutcome o).pending = s.pending := by cases o <;> rfl
@[simp] theorem State.countOutcome_visits (o : FrameOutcome) (s : State) : (s.countOutcome o).visits = s.visits := by cases o <;> rfl
@[simp] theorem State.enterDispatch_cfg (o : FrameOutcome) (s : State) : (s.enterDispatch o).cfg = s.cfg := by cases o <;> rfl
@[simp] theorem State.enterDispatch_buf (o : FrameOutcome) (s : State) : (s.enterDispatch o).buf = s.buf := by cases o <;> rfl
@[simp] theorem State.enterDispatch_wr (o : FrameOutcome) (s : State) : (s.enterDispatch o).wr = s.wr := by cases o <;> rfl
@[simp] theorem State.enterDispatch_esc (o : FrameOutcome) (s : State) : (s.enterDispatch o).esc = s.esc := by cases o <;> rfl
@[simp] theorem State.enterDispatch_err (o : FrameOutcome) (s : State) : (s.enterDispatch o).err = s.err := by cases o <;> rfl
@[simp] theorem State.enterDispatch_crcErrCnt (o : FrameOutcome) (s : State) : (s.enterDispatch o).crcErrCnt = s.crcErrCnt := by cases o <;> rfl
@[simp] theorem State.enterDispatch_totErrCnt (o : FrameOutcome) (s : State) : (s.enterDispatch o).totErrCnt = s.totErrCnt := by cases o <;> rfl
@[simp] theorem State.enterDispatch_cbEn (o : FrameOutcome) (s : State) : (s.enterDispatch o).cbEn = s.cbEn := by cases o <;> rfl
@[simp] theorem State.enterDispatch_crcTx (o : FrameOutcome) (s : State) : (s.enterDispatch o).crcTx = s.crcTx := by cases o <;> rfl
@[simp] theorem State.enterDispatch_txLock (o : FrameOutcome) (s : State) : (s.enterDispatch o).txLock = s.txLock := by cases o <;> rfl
@[simp] theorem State.enterDispatch_txOut (o : FrameOutcome) (s : State) : (s.enterDispatch o).txOut = s.txOut := by cases o <;> rfl
@[simp] theorem State.enterDispatch_dispatchLog (o : FrameOutcome) (s : State) : (s.enterDispatch o).dispatchLog = if o = .delivered then s.dispatchLog ++ [s.bufferedMessage] else s.dispatchLog := by cases o <;> rfl
@[simp] theorem State.enterDispatch_cntLog (o : FrameOutcome) (s : State) : (s.enterDispatch o).cntLog = s.cntLog := by cases o <;> rfl
@[simp] theorem State.enterDispatch_outcomeLog (o : FrameOutcome) (s : State) : (s.enterDispatch o).outcomeLog = s.outcomeLog := by cases o <;> rfl
@[simp] theorem State.enterDispatch_pending (o : FrameOutcome) (s : State) : (s.enterDispatch o).pending = s.pending := by cases o <;> rfl
@[simp] theorem State.enterDispatch_visits (o : FrameOutcome) (s : State) : (s.enterDispatch o).visits = s.visits := by cases o <;> rfl

@[simp] theorem State.countOutcome_bufferedMessage (o : FrameOutcome) (s : State) :
    (s.countOutcome o).bufferedMessage = s.bufferedMessage := by cases o <;> rfl

@[simp] theorem State.validate_cfg (s : State) : s.validate.cfg = s.cfg := by simp [State.validate]
@[simp] theorem State.validate_buf (s : State) : s.validate.buf = s.buf := by simp [State.validate]
@[simp] theorem State.validate_wr (s : State) : s.validate.wr = s.wr := by simp [State.validate]
@[simp] theorem State.validate_esc (s : State) : s.validate.esc = s.esc := by simp [State.validate]
@[simp] theorem State.validate_err (s : State) : s.validate.err = s.err := by simp [State.validate]
@[simp] theorem State.validate_crcErrCnt (s : State) : s.validate.crcErrCnt = if s.outcome.isCrcError then satInc s.cfg s.crcErrCnt else s.crcErrCnt := by simp [State.validate]
@[simp] theorem State.validate_totErrCnt (s : State) : s.validate.totErrCnt = if s.outcome.isError then satInc s.cfg s.totErrCnt else s.totErrCnt := by simp [State.validate]
@[simp] theorem State.validate_cbEn (s : State) : s.validate.cbEn = s.cbEn := by simp [State.validate]
@[simp] theorem State.validate_crcTx (s : State) : s.validate.crcTx = s.crcTx := by simp [State.validate]
@[simp] theorem State.validate_txLock (s : State) : s.validate.txLock = s.txLock := by simp [State.validate]
@[simp] theorem State.validate_txOut (s : State) : s.validate.txOut = s.txOut := by simp [State.validate]
@[simp] theorem State.validate_dispatchLog (s : State) : s.validate.dispatchLog = if s.outcome = .delivered then s.dispatchLog ++ [s.bufferedMessage] else s.dispatchLog := by simp [State.validate]
@[simp] theorem State.validate_cntLog (s : State) : s.validate.cntLog = s.cntLog := by simp [State.validate]
@[simp] theorem State.validate_outcomeLog (s : State) : s.validate.outcomeLog = s.outcomeLog ++ [s.outcome] := by simp [State.validate]
@[simp] theorem State.validate_pending (s : State) : s.validate.pending = s.pending := by simp [State.validate]
@[simp] theorem State.validate_visits (s : State) : s.validate.visits = s.visits := by simp [State.validate]

end Sys2Proof.Machine
end

