-- ==== Sys2Proof/Laws/Exec.lean ====
section
/-! SUPPORT. What the meanings can do, said once: the forms of a fed byte, what a consumer may change, the frame boundary, and the one
inversion law of `exec`. -/

namespace Sys2Proof.Machine

/-! ### What an encoder or status operation can change -/

/-- `t` is `s` after operations that touch only the encoder, `cb_en` and the histories they extend (R39, rows CFGCB to END). -/
structure SideEffect (s t : State) : Prop where
  cfg : t.cfg = s.cfg
  buf : t.buf = s.buf
  wr : t.wr = s.wr
  esc : t.esc = s.esc
  err : t.err = s.err
  crcErrCnt : t.crcErrCnt = s.crcErrCnt
  totErrCnt : t.totErrCnt = s.totErrCnt
  dispatchLog : t.dispatchLog = s.dispatchLog
  outcomeLog : t.outcomeLog = s.outcomeLog
  pending : t.pending = s.pending
  visits : t.visits = s.visits
  txOut : s.txOut <+: t.txOut
  cntLog : ∃ k, t.cntLog = s.cntLog ++ List.replicate k (s.totErrCnt, s.crcErrCnt)

theorem SideEffect.refl (s : State) : SideEffect s s :=
  ⟨rfl, rfl, rfl, rfl, rfl, rfl, rfl, rfl, rfl, rfl, rfl, List.prefix_refl _, 0, by simp⟩

theorem SideEffect.trans {s t u : State} (h : SideEffect s t) (g : SideEffect t u) : SideEffect s u where
  cfg := g.cfg.trans h.cfg
  buf := g.buf.trans h.buf
  wr := g.wr.trans h.wr
  esc := g.esc.trans h.esc
  err := g.err.trans h.err
  crcErrCnt := g.crcErrCnt.trans h.crcErrCnt
  totErrCnt := g.totErrCnt.trans h.totErrCnt
  dispatchLog := g.dispatchLog.trans h.dispatchLog
  outcomeLog := g.outcomeLog.trans h.outcomeLog
  pending := g.pending.trans h.pending
  visits := g.visits.trans h.visits
  txOut := h.txOut.trans g.txOut
  cntLog := by
    obtain ⟨k, hk⟩ := h.cntLog
    obtain ⟨l, hl⟩ := g.cntLog
    exact ⟨k + l, by rw [hl, hk, h.totErrCnt, h.crcErrCnt, List.append_assoc, List.replicate_append_replicate]⟩

/-- Operations that only emit and write encoder registers are side effects. -/
theorem SideEffect.of_emit {s t : State} (out : List Byte)
    (h : t = { s with crcTx := t.crcTx, txLock := t.txLock, cbEn := t.cbEn, txOut := s.txOut ++ out }) : SideEffect s t := by
  rw [h]
  exact ⟨rfl, rfl, rfl, rfl, rfl, rfl, rfl, rfl, rfl, rfl, rfl, List.prefix_append _ _, 0, by simp⟩

theorem SideEffect.returnCounters (s : State) : SideEffect s s.returnCounters :=
  ⟨rfl, rfl, rfl, rfl, rfl, rfl, rfl, rfl, rfl, rfl, rfl, List.prefix_refl _, 1, rfl⟩

/-- `END` in one equation. -/
theorem execEndFrame_eq (s : State) :
    execEndFrame s = .next { s with
      txOut := s.txOut ++ (escaped s.cfg (cksLow s.crcTx) ++ (escaped s.cfg (cksHigh s.crcTx) ++ [s.cfg.flag])),
      crcTx := s.cfg.crcInit, txLock := false } := by
  simp [execEndFrame, State.put_eq, State.emit, State.setTxLock, State.setCrcTx]

/-- `BEGIN` in one equation. -/
theorem execBeginFrame_eq (t : Byte) (s : State) :
    execBeginFrame t s = .next { s with
      txOut := s.txOut ++ escaped s.cfg t, crcTx := crcUpdate s.cfg s.cfg.crcInit t, txLock := true } := by
  simp [execBeginFrame, State.put_eq, State.setTxLock, State.setCrcTx]

/-- `WRITE` in one equation. -/
theorem execWriteByte_eq (b : Byte) (s : State) :
    execWriteByte b s = .next { s with txOut := s.txOut ++ escaped s.cfg b, crcTx := crcUpdate s.cfg s.crcTx b } := by
  simp [execWriteByte, State.put_eq]

/-- Everything but a `FEED` and its forms completes and is a side effect. -/
theorem exec_sideEffect {i : Instr} (h : Instr.receives i = false) (s : State) : ∃ t, exec i s = .next t ∧ SideEffect s t := by
  cases i with
  | rsvd0 => exact ⟨_, rfl, .refl s⟩
  | rsvd7 => exact ⟨_, rfl, .refl s⟩
  | feed c => exact absurd h (by simp [Instr.receives])
  | rxEsc e => exact absurd h (by simp [Instr.receives])
  | rxUnesc c => exact absurd h (by simp [Instr.receives])
  | rxFlag => exact absurd h (by simp [Instr.receives])
  | rxData c => exact absurd h (by simp [Instr.receives])
  | cfgcb en => exact ⟨_, rfl, .of_emit [] (by simp [State.setCbEn])⟩
  | rdcnt => exact ⟨_, rfl, .returnCounters s⟩
  | beginFrame b => exact ⟨_, execBeginFrame_eq b s, .of_emit _ rfl⟩
  | writeByte b => exact ⟨_, execWriteByte_eq b s, .of_emit _ rfl⟩
  | endFrame => exact ⟨_, execEndFrame_eq s, .of_emit _ rfl⟩
  | txLit b => exact ⟨_, rfl, .of_emit [b] rfl⟩
  | txEscseq b => exact ⟨_, rfl, .of_emit [s.cfg.escMark, b ^^^ s.cfg.mask] (by
      simp [State.emitEscseq, State.account, State.emit, State.setCrcTx])⟩
  | txFlag => exact ⟨_, rfl, .of_emit [s.cfg.flag] rfl⟩

/-- Inside a dispatch an allowed operation does what it does outside. -/
theorem consumerOp_allowed {i : Command} (h : Command.allowedInDispatch i = true) (s : State) : consumerOp i s = exec i.instr s := by
  cases i <;> first | rfl | exact absurd h (by simp [Command.allowedInDispatch, Command.instr, Instr.receives])

theorem consumerOp_forbidden {i : Command} (h : Command.allowedInDispatch i = false) (s : State) :
    consumerOp i s = .refused .feedInsideDispatch := by
  cases i <;> first | rfl | exact absurd h (by simp [Command.allowedInDispatch, Command.instr, Instr.receives])

/-- The allowed operations complete, and each is a side effect. -/
theorem consumerOp_completes {i : Command} (h : Command.allowedInDispatch i = true) (s : State) :
    ∃ t, consumerOp i s = .next t ∧ SideEffect s t := by
  rw [consumerOp_allowed h]
  exact exec_sideEffect (by simpa [Command.allowedInDispatch] using h) s

/-- Inside a dispatch an operation never faults. -/
theorem consumerOp_not_fault (i : Command) (s : State) (e : Fault) : consumerOp i s ≠ .fault e := by
  cases h : Command.allowedInDispatch i with
  | true => obtain ⟨t, ht, -⟩ := consumerOp_completes h s; simp [ht]
  | false => simp [consumerOp_forbidden h s]

theorem consumerOp_next {i : Command} {s t : State} (h : consumerOp i s = .next t) : SideEffect s t := by
  cases hi : Command.allowedInDispatch i with
  | true =>
    obtain ⟨u, hu, hs⟩ := consumerOp_completes hi s
    rw [hu] at h
    exact Host.Outcome.next.inj h ▸ hs
  | false => simp [consumerOp_forbidden hi s] at h

/-- The allowed operations of a visit complete, and do what they do outside a dispatch. -/
theorem consumerOps_allowed {ops : List Command} (h : ∀ i ∈ ops, Command.allowedInDispatch i = true) (s : State) :
    ∃ t, runOps (ops.map Command.instr) s = .next t ∧ consumerOps ops s = .next t ∧ SideEffect s t := by
  induction ops generalizing s with
  | nil => exact ⟨s, rfl, rfl, .refl s⟩
  | cons i ops ih =>
    obtain ⟨t, h2, h3⟩ := consumerOp_completes (h i (by simp)) s
    obtain ⟨u, g1, g2, g3⟩ := ih (fun j hj => h j (by simp [hj])) t
    exact ⟨u, by simp [runOps, ← consumerOp_allowed (h i (by simp)), h2, g1], by simp [consumerOps, h2, g2], h3.trans g3⟩

theorem consumerOps_next {ops : List Command} {s t : State} (h : consumerOps ops s = .next t) : SideEffect s t := by
  induction ops generalizing s with
  | nil => exact Host.Outcome.next.inj h ▸ .refl s
  | cons i ops ih =>
    obtain ⟨u, h1, h2⟩ := andThen_eq_next.mp h
    exact (consumerOp_next h1).trans (ih h2)

/-- Inside a dispatch no sequence of operations faults. -/
theorem consumerOps_not_fault (ops : List Command) (s : State) (e : Fault) : consumerOps ops s ≠ .fault e := by
  induction ops generalizing s with
  | nil => simp [consumerOps]
  | cons i ops ih =>
    rw [consumerOps]
    cases h : consumerOp i s with
    | next t => exact ih t
    | fault f => exact absurd h (consumerOp_not_fault i s f)
    | refused r => simp

/-- Inside a dispatch only a `FEED` is refused. -/
theorem consumerOps_eq_refused {ops : List Command} {s : State} {r : Refusal} (h : consumerOps ops s = .refused r) :
    r = .feedInsideDispatch ∧ ∃ c, Command.feed c ∈ ops := by
  induction ops generalizing s with
  | nil => simp [consumerOps] at h
  | cons i ops ih =>
    rw [consumerOps] at h
    cases ha : Command.allowedInDispatch i with
    | true =>
      obtain ⟨t, ht, -⟩ := consumerOp_completes ha s
      rw [ht] at h
      obtain ⟨hr, c, hc⟩ := ih (s := t) h
      exact ⟨hr, c, List.mem_cons_of_mem _ hc⟩
    | false =>
      rw [consumerOp_forbidden ha] at h
      refine ⟨(Host.Outcome.refused.inj h).symm, ?_⟩
      cases i with
      | feed c => exact ⟨c, List.mem_cons_self⟩
      | _ => exact absurd ha (by simp [Command.allowedInDispatch, Command.instr, Instr.receives])

theorem State.setVisits_self (s : State) : s.setVisits s.visits = s := rfl

theorem State.setEsc_self (s : State) : s.setEsc s.esc = s := rfl

theorem consumerTurn_idle {s : State} (h : s.visits = []) : consumerTurn s = .next s := by
  simp [consumerTurn, h]

/-- What the consumer's turn can do when the dispatch returns. -/
theorem consumerTurn_next {s t : State} (h : consumerTurn s = .next t) : SideEffect (s.setVisits s.visits.tail) t := by
  unfold consumerTurn at h
  split at h
  · next hv =>
    obtain rfl := Host.Outcome.next.inj h
    have : s.setVisits s.visits.tail = s := by
      conv_rhs => rw [← State.setVisits_self s]
      simp [hv]
    rw [this]; exact .refl s
  · next v rest hv =>
    obtain ⟨u, h1, h2⟩ := andThen_eq_next.mp h
    split_ifs at h2
    obtain rfl := Host.Outcome.next.inj h2
    simpa [hv] using consumerOps_next h1

/-! ### The forms of a fed byte -/

theorem rxForm_esc (c : Config) (e : Bool) : rxForm c e c.escMark = .esc := by simp [rxForm]

theorem execFeed_esc (s : State) : execFeed s.cfg.escMark s = .next (s.setEsc true) := by
  simp [execFeed, rxForm, execRxEsc]

theorem execFeed_unesc {s : State} {c : Byte} (hc : c ≠ s.cfg.escMark) (he : s.esc = true) : execFeed c s = execRxUnesc c s := by
  simp [execFeed, rxForm, hc, he]

theorem execFeed_flag {s : State} (hv : s.cfg.Valid) (he : s.esc = false) : execFeed s.cfg.flag s = execRxFlag s := by
  simp [execFeed, rxForm, hv.1, he]

theorem execFeed_data {s : State} {c : Byte} (hc : s.cfg.reserved c = false) (he : s.esc = false) : execFeed c s = execRxData c s := by
  obtain ⟨h1, h2⟩ := (Config.not_reserved_iff _ _).mp hc
  simp [execFeed, rxForm, h1, h2, he]

/-- A `FEED` is one of its four forms (R140). -/
theorem execFeed_cases (c : Byte) (s : State) :
    (c = s.cfg.escMark ∧ execFeed c s = execRxEsc s.esc s) ∨
    (c ≠ s.cfg.escMark ∧ s.esc = true ∧ execFeed c s = execRxUnesc c s) ∨
    (c ≠ s.cfg.escMark ∧ s.esc = false ∧ c = s.cfg.flag ∧ execFeed c s = execRxFlag s) ∨
    (s.esc = false ∧ s.cfg.reserved c = false ∧ execFeed c s = execRxData c s) := by
  by_cases h1 : c = s.cfg.escMark
  · exact .inl ⟨h1, by simp [execFeed, rxForm, h1]⟩
  · cases h2 : s.esc with
    | true => exact .inr (.inl ⟨h1, rfl, by simp [execFeed, rxForm, h1, h2]⟩)
    | false =>
      by_cases h3 : c = s.cfg.flag
      · exact .inr (.inr (.inl ⟨h1, rfl, h3, by subst h3; simp [execFeed, rxForm, h1, h2]⟩))
      · have hr := (Config.not_reserved_iff s.cfg c).mpr ⟨h3, h1⟩
        exact .inr (.inr (.inr ⟨rfl, hr, execFeed_data hr h2⟩))

/-! ### The frame boundary -/

theorem execRxFlag_dropped {s : State} (ho : s.outcome ≠ .delivered) : execRxFlag s = .next s.validate.boundaryReset := by
  unfold execRxFlag
  split <;> first | rfl | contradiction

theorem execRxFlag_delivered {s : State} (ho : s.outcome = .delivered) :
    execRxFlag s = andThen (consumerTurn s.validate) fun t => .next t.boundaryReset := by
  simp [execRxFlag, ho]

/-- What a frame boundary that answers a next state has done: validation, perhaps the consumer's turn, the boundary reset. -/
theorem execRxFlag_next {s t : State} (h : execRxFlag s = .next t) :
    ∃ v u, (v = s.visits ∨ (s.outcome = .delivered ∧ v = s.visits.tail)) ∧
      SideEffect (s.validate.setVisits v) u ∧ t = u.boundaryReset := by
  by_cases ho : s.outcome = .delivered
  · rw [execRxFlag_delivered ho] at h
    obtain ⟨u, h1, h2⟩ := andThen_eq_next.mp h
    exact ⟨s.visits.tail, u, .inr ⟨ho, rfl⟩, by simpa using consumerTurn_next h1, (Host.Outcome.next.inj h2).symm⟩
  · rw [execRxFlag_dropped ho] at h
    exact ⟨s.visits, s.validate, .inl rfl, by
      have := State.setVisits_self s.validate
      rw [State.validate_visits] at this
      rw [this]; exact .refl _, (Host.Outcome.next.inj h).symm⟩

/-! ### Every instruction at once -/

/-- What an instruction that answers a next state has done: a side effect, the escape bit, a buffer write attempt, or a frame boundary. -/
theorem exec_next {i : Instr} {s t : State} (h : exec i s = .next t) :
    (Instr.receives i = false ∧ SideEffect s t) ∨
    (Instr.receives i = true ∧ t = s.setEsc true) ∨
    (Instr.receives i = true ∧ ∃ v e, push v (s.setEsc e) = .next t) ∨
    (execRxFlag s = .next t ∧ (i = .rxFlag ∨ (i = .feed s.cfg.flag ∧ s.esc = false))) := by
  by_cases hi : Instr.receives i = false
  · obtain ⟨u, h1, h3⟩ := exec_sideEffect hi s
    exact .inl ⟨hi, Host.Outcome.next.inj (h.symm.trans h1) ▸ h3⟩
  · cases i with
    | feed c =>
      rcases execFeed_cases c s with ⟨-, hf⟩ | ⟨-, -, hf⟩ | ⟨-, he, rfl, hf⟩ | ⟨-, -, hf⟩ <;>
        rw [show exec (.feed _) s = execFeed _ s from rfl, hf] at h
      · exact .inr (.inl ⟨rfl, (Host.Outcome.next.inj h).symm⟩)
      · exact .inr (.inr (.inl ⟨rfl, _, false, h⟩))
      · exact .inr (.inr (.inr ⟨h, .inr ⟨rfl, he⟩⟩))
      · exact .inr (.inr (.inl ⟨rfl, c, s.esc, h⟩))
    | rxEsc e => exact .inr (.inl ⟨rfl, (Host.Outcome.next.inj h).symm⟩)
    | rxUnesc c => exact .inr (.inr (.inl ⟨rfl, _, false, h⟩))
    | rxFlag => exact .inr (.inr (.inr ⟨h, .inl rfl⟩))
    | rxData c => exact .inr (.inr (.inl ⟨rfl, c, s.esc, h⟩))
    | _ => exact absurd rfl hi

/-! ### Sequences -/

theorem runOps_append (xs ys : List Instr) (s : State) : runOps (xs ++ ys) s = andThen (runOps xs s) (runOps ys) := by
  induction xs generalizing s with
  | nil => rfl
  | cons i xs ih => simp only [List.cons_append, runOps, andThen_assoc, funext ih]

@[simp] theorem runOps_nil (s : State) : runOps [] s = .next s := rfl

theorem feeds_append (xs ys : List Byte) : feeds (xs ++ ys) = feeds xs ++ feeds ys := by simp [feeds]

/-! ### Steps -/

/-- An operation word's instruction is an operation: no byte form is issued on the command port (R97, R104). -/
theorem decodeCmd_isCommand (w : OpWord) : ∃ i : Command, decodeCmd w = i.instr := by
  unfold decodeCmd
  split_ifs
  · exact ⟨.rsvd0, rfl⟩
  · exact ⟨.feed _, rfl⟩
  · exact ⟨.cfgcb _, rfl⟩
  · exact ⟨.rdcnt, rfl⟩
  · exact ⟨.beginFrame _, rfl⟩
  · exact ⟨.writeByte _, rfl⟩
  · exact ⟨.endFrame, rfl⟩
  · exact ⟨.rsvd7, rfl⟩

/-- A received byte's instruction is a receive form (R88). -/
theorem decodeRx_receives (c : Config) (p : RxPattern) : Instr.receives (decodeRx c p) = true := by
  unfold decodeRx
  cases rxForm c p.escBit p.byte <;> rfl

/-- A step whose oldest input is an operation word or a received byte runs its instruction on the state without that input. -/
theorem step_decoded {s : State} {x : Input} {rest : List Input} {i : Instr} (hv : s.cfg.Valid)
    (hp : s.pending = x :: rest) (hf : s.fetchOf x = some i) : step s = exec i (s.setPending rest) := by
  unfold step
  rw [if_pos hv]
  simp only [hp, hf]

/-- What a step that answers a next state has done. -/
theorem step_next {s t : State} (h : step s = .next t) :
    s.cfg.Valid ∧ ((s.pending = [] ∧ t = s) ∨
      ∃ x rest, s.pending = x :: rest ∧ (t = (s.setPending rest).resetEvent ∨ ∃ i, exec i (s.setPending rest) = .next t)) := by
  unfold step at h
  split_ifs at h with hv
  refine ⟨hv, ?_⟩
  split at h
  · next hp => exact .inl ⟨hp, (Host.Outcome.next.inj h).symm⟩
  · next x rest hp =>
    refine .inr ⟨x, rest, hp, ?_⟩
    split at h
    · exact .inl (Host.Outcome.next.inj h).symm
    · exact .inr ⟨_, h⟩

end Sys2Proof.Machine
end

