-- ==== Sys2Proof/Laws/Frame.lean ====
section
/-! SUPPORT. Whole frames: what an encoder emits for a list of content bytes, and what a decoder makes of their wire bytes. -/

namespace Sys2Proof.Machine

/-! ### The encoder -/

/-- Consecutive `WRITE`s emit the escaped bytes and fold the running checksum (R123). -/
theorem runOps_writes (p : List Byte) (s : State) :
    runOps (p.map .writeByte) s = .next { s with
      txOut := s.txOut ++ p.flatMap (escaped s.cfg), crcTx := p.foldl (crcUpdate s.cfg) s.crcTx } := by
  induction p generalizing s with
  | nil => simp
  | cons b p ih => simp [runOps, show ∀ u, exec (.writeByte b) u = execWriteByte b u from fun _ => rfl, execWriteByte_eq, ih]

/-- After `BEGIN t` and the payload the running checksum is that of type and payload (R123). -/
theorem runOps_begin_writes (t : Byte) (p : List Byte) (s : State) :
    runOps (.beginFrame t :: p.map .writeByte) s = .next { s with
      txOut := s.txOut ++ (t :: p).flatMap (escaped s.cfg), crcTx := crcBlock s.cfg (t :: p), txLock := true } := by
  simp [runOps, show ∀ u, exec (.beginFrame t) u = execBeginFrame t u from fun _ => rfl, execBeginFrame_eq, runOps_writes, crcBlock]

/-! ### The decoder -/

/-- Feeding the wire bytes of one content byte is one buffer write attempt of it (R83). -/
theorem runOps_feed_escaped {s : State} (hv : s.cfg.Valid) (he : s.esc = false) (b : Byte) :
    runOps (feeds (escaped s.cfg b)) s = push b s := by
  have exec_feed : ∀ c u, exec (.feed c) u = execFeed c u := fun _ _ => rfl
  have last : ∀ r : Result, andThen r (fun u => Host.Outcome.next u) = r := fun r => by cases r <;> rfl
  cases hr : s.cfg.reserved b with
  | true =>
    have hm := ((Config.not_reserved_iff _ _).mp (Config.masked_not_reserved hv hr)).2
    rw [escaped_reserved hr]
    simp only [feeds, List.map_cons, List.map_nil, runOps, exec_feed, execFeed_esc, andThen_next]
    rw [execFeed_unesc (by simpa using hm) (by simp)]
    have back : (s.setEsc true).setEsc false = s := by
      conv_rhs => rw [← State.setEsc_self s, he]
      rfl
    simp only [execRxUnesc, unescape, State.setEsc_cfg, xor_mask_twice, back]
    exact last _
  | false =>
    rw [escaped_ordinary hr]
    simp only [feeds, List.map_cons, List.map_nil, runOps, exec_feed, execFeed_data hr he, execRxData]
    exact last _

/-- `t` is the decoder of `s` after the content bytes `bs` were offered to the buffer. -/
structure Filled (s : State) (bs : List Byte) (t : State) : Prop where
  rest : t = { s with buf := t.buf, wr := t.wr, err := t.err }
  wr : t.wr = min (s.wr + bs.length) s.cfg.bufEnd
  err : t.err = (s.err || decide (s.cfg.bufEnd < s.wr + bs.length))
  stored : ∀ k (hk : k < bs.length), s.wr + k < s.cfg.bufEnd → Memory.read t.buf (s.wr + k) = bs[k]
  kept : ∀ a, a < s.wr ∨ s.cfg.bufEnd ≤ a → Memory.read t.buf a = Memory.read s.buf a
  wf : Memory.wf t.buf
  bound : (∀ cell ∈ s.buf, cell.1 < s.cfg.bufEnd) → ∀ cell ∈ t.buf, cell.1 < s.cfg.bufEnd

/-- Feeding the wire bytes of content bytes fills the buffer with them, or overruns it (R145, R160). -/
theorem runOps_feed_content {s : State} (hv : s.cfg.Valid) (he : s.esc = false) (hc : s.CursorOk) (hw : Memory.wf s.buf)
    (bs : List Byte) : ∃ t, runOps (feeds (bs.flatMap (escaped s.cfg))) s = .next t ∧ Filled s bs t := by
  induction bs generalizing s with
  | nil =>
    obtain ⟨h1, h2, h3⟩ := hc
    refine ⟨s, rfl, rfl, ?_, ?_, by simp, fun _ _ => rfl, hw, fun h => h⟩
    · simp; omega
    · simp; omega
  | cons b bs ih =>
    obtain ⟨h1, h2, h3⟩ := hc
    simp only [List.flatMap_cons, feeds_append, runOps_append, runOps_feed_escaped hv he]
    rcases Nat.lt_or_eq_of_le h2 with h | h
    · rw [push_room b h1 h, andThen_next]
      have herr : s.err = false := by
        cases hs : s.err with
        | false => rfl
        | true => exact absurd (h3 hs) (Nat.ne_of_lt h)
      obtain ⟨t, ht, f⟩ := ih (s := s.store b) hv he ⟨by simp; omega, by simp; omega, by simp [herr]⟩ (Memory.write_wf hw _ _)
      refine ⟨t, ht, ?_, ?_, ?_, ?_, ?_, f.wf, fun hm => f.bound (Memory.write_bound hm h)⟩
      · rw [f.rest]; rfl
      · rw [f.wr]; simp; omega
      · rw [f.err, State.store_err, State.store_wr, State.store_cfg, List.length_cons,
          show s.wr + 1 + bs.length = s.wr + (bs.length + 1) by omega]
      · intro k hk hlt
        cases k with
        | zero =>
          rw [f.kept _ (.inl (by simp))]
          simpa using Memory.read_write_same hw s.wr b
        | succ k =>
          have := f.stored k (by simpa using hk) (by simp; omega)
          simpa [Nat.add_assoc, Nat.add_comm 1 k] using this
      · intro a ha
        rw [f.kept a (by simp; omega)]
        exact Memory.read_write_other _ _ (by omega)
    · rw [push_full b h, andThen_next]
      obtain ⟨t, ht, f⟩ := ih (s := s.latchErr) hv he ⟨h1, h2, fun _ => h⟩ hw
      refine ⟨t, ht, ?_, ?_, ?_, ?_, ?_, f.wf, f.bound⟩
      · rw [f.rest]; rfl
      · rw [f.wr]; simp; omega
      · rw [f.err]; simp; right; omega
      · intro k hk hlt; omega
      · intro a ha
        exact f.kept a (by simpa using ha)

/-! ### The boundary of a whole frame -/

/-- A buffer that holds exactly the content of a frame yields its message: the checksums agree (R149, R150). -/
theorem Filled.frame {s t : State} {ty : Byte} {p : List Byte} (f : Filled s (frameContent s.cfg ty p) t)
    (hw : s.wr = s.cfg.pad) (he : s.err = false) (hl : p.length + 3 ≤ s.cfg.cap) :
    t.outcome = (if s.cbEn then .delivered else .noCallback) ∧ t.bufferedMessage = ⟨ty, p⟩ := by
  have hlen : (frameContent s.cfg ty p).length = p.length + 3 := by simp [frameContent]
  have hend : s.cfg.bufEnd = s.cfg.pad + s.cfg.cap := rfl
  have hcfg : t.cfg = s.cfg := by rw [f.rest]
  have hcb : t.cbEn = s.cbEn := by rw [f.rest]
  have hwr : t.wr = s.cfg.pad + (p.length + 3) := by rw [f.wr, hlen, hw]; omega
  have herr : t.err = false := by rw [f.err, hlen, hw, he]; simp; omega
  have hn : t.contentLen = p.length + 3 := by simp [State.contentLen, hwr, hcfg]
  have at_ : ∀ k (hk : k < (frameContent s.cfg ty p).length), Memory.read t.buf (s.cfg.pad + k) = (frameContent s.cfg ty p)[k] := by
    intro k hk
    have := f.stored k hk (by omega)
    rwa [hw] at this
  have hcc : t.checkedContent = ty :: p := by
    have := Memory.slice_eq (m := t.buf) (a := s.cfg.pad) (bs := ty :: p) (fun i hi => by
      rw [at_ i (by rw [hlen]; simp at hi; omega)]
      exact List.getElem_append_left hi)
    simpa [State.checkedContent, hcfg, hn] using this
  have hlo : Memory.read t.buf (t.wr - 2) = cksLow (crcBlock s.cfg (ty :: p)) := by
    have := at_ (p.length + 1) (by omega)
    rw [hwr, show s.cfg.pad + (p.length + 3) - 2 = s.cfg.pad + (p.length + 1) by omega, this]
    simp [frameContent]
  have hhi : Memory.read t.buf (t.wr - 1) = cksHigh (crcBlock s.cfg (ty :: p)) := by
    have := at_ (p.length + 2) (by omega)
    rw [hwr, show s.cfg.pad + (p.length + 3) - 1 = s.cfg.pad + (p.length + 2) by omega, this]
    simp [frameContent]
  have hck : t.expectedCks = t.receivedCks := by
    simp [State.expectedCks, State.receivedCks, hcc, hlo, hhi, hcfg]
  refine ⟨?_, ?_⟩
  · have h0 : ¬ (p.length + 3 < 3) := by omega
    simp [State.outcome, herr, hn, h0, hck, hcb]
  · have h0 := at_ 0 (by omega)
    have hp := Memory.slice_eq (m := t.buf) (a := s.cfg.pad + 1) (bs := p) (fun i hi => by
      have := at_ (i + 1) (by omega)
      rw [Nat.add_assoc, Nat.add_comm 1 i, this]
      simp [frameContent, List.getElem_append_left hi])
    simp only [State.bufferedMessage, hcfg, hn, Nat.add_sub_cancel, hp]
    simpa [frameContent] using h0

end Sys2Proof.Machine
end

