-- ==== Sys2Proof/Laws/PerInstr.lean ====
section
/-! SUPPORT. Per instruction: the word the encoder gives an instruction matches the instruction's row of spec/opcode_table.json, under the
profile P0 whose numbers the table prints (R104). -/

namespace Sys2Proof.Laws.EncodingFits

/-- The columns of a row that a word can be held against: the mask and match of an operation word or of a receive pattern, the wire bytes
of a transmit form. -/
inductive Row where
  | cmd (mask value : OpWord)
  | rxb (mask value : RxPattern)
  | txb (wire : List Byte)

/-- The rows as the table prints them. -/
def row : Instr → Row
  | .rsvd0 => .cmd 0x700 0x000
  | .feed _ => .cmd 0x700 0x100
  | .cfgcb _ => .cmd 0x700 0x200
  | .rdcnt => .cmd 0x700 0x300
  | .beginFrame _ => .cmd 0x700 0x400
  | .writeByte _ => .cmd 0x700 0x500
  | .endFrame => .cmd 0x700 0x600
  | .rsvd7 => .cmd 0x700 0x700
  | .rxEsc _ => .rxb 0x0FF 0x07D
  | .rxUnesc _ => .rxb 0x100 0x100
  | .rxFlag => .rxb 0x1FF 0x07E
  | .rxData _ => .rxb 0x100 0x000
  | .txLit b => .txb [b]
  | .txEscseq b => .txb [0x7D, b ^^^ 0x20]
  | .txFlag => .txb [0x7E]

/-- A word matches a row of its own format. -/
def matchesRow : Fetch → Row → Prop
  | .cmd w, .cmd mask value => w &&& mask = value
  | .rxb p, .rxb mask value => p &&& mask = value
  | .txb bytes, .txb wire => bytes = wire
  | _, _ => False

/-- The encoder's word fits the table, whatever the operands. -/
def Statement (i : Instr) : Prop :=
  matchesRow (encode Config.P0 i) (row i)

theorem cmd_fits (op : BitVec 3) (d : Byte) : opWord op d &&& 0x700 = op ++ (0 : Byte) := by
  revert op d
  decide +kernel

theorem rxb_fits (e : Bool) (b : Byte) : rxPattern e b &&& 0x100 = BitVec.ofBool e ++ (0 : Byte) := by
  revert e b
  decide +kernel

theorem rsvd0 : Statement .rsvd0 := cmd_fits _ _
theorem feed (c : Byte) : Statement (.feed c) := cmd_fits _ _
theorem cfgcb (en : Bool) : Statement (.cfgcb en) := cmd_fits _ _
theorem rdcnt : Statement .rdcnt := cmd_fits _ _
theorem beginFrame (t : Byte) : Statement (.beginFrame t) := cmd_fits _ _
theorem writeByte (b : Byte) : Statement (.writeByte b) := cmd_fits _ _
theorem endFrame : Statement .endFrame := cmd_fits _ _
theorem rsvd7 : Statement .rsvd7 := cmd_fits _ _

theorem rxEsc (e : Bool) : Statement (.rxEsc e) := by
  cases e <;> rfl

theorem rxUnesc (c : Byte) : Statement (.rxUnesc c) := rxb_fits _ _
theorem rxFlag : Statement .rxFlag := rfl
theorem rxData (c : Byte) : Statement (.rxData c) := rxb_fits _ _
theorem txLit (b : Byte) : Statement (.txLit b) := rfl
theorem txEscseq (b : Byte) : Statement (.txEscseq b) := rfl
theorem txFlag : Statement .txFlag := rfl

end Sys2Proof.Laws.EncodingFits
end

