-- ==== Sys2Proof/Tests/Slice0.lean ====
section
/-! SUPPORT. Tests: words written out from the encodings of 30_encoding.md, the well-formedness checks, one-step tests whose results are the
spec's worked examples and vectors (95_test_vectors.md), and for each statement with hypotheses a state that meets them. -/

namespace Sys2Proof.Tests

open Sys2Proof.Machine Sys2Proof.Claims

/-! ### Small states -/

/-- The cells of bytes laid out from index `a` upward, 0x00 listed nowhere. -/
def cells (a : Nat) : List Byte → Memory
  | [] => []
  | b :: bs => if b = 0x00 then cells (a + 1) bs else (a, b) :: cells (a + 1) bs

/-- The reset state of P0 after `CFGCB 1`, with these content bytes buffered. -/
def holding (bs : List Byte) : State :=
  { State.reset with buf := cells 0 bs, wr := bs.length, cbEn := true }

/-- The same with `esc = 1`. -/
def escaping (bs : List Byte) : State :=
  { holding bs with esc := true }

/-- A full buffer with the overrun latched. -/
def overrun : State :=
  { holding [1, 2, 3, 4, 5, 6, 7, 8] with err := true }

/-- The frame `(0x01, [])` of SV-1, all but its `FLAG`. -/
def goodFrame : State :=
  holding [0x01, 0xD1, 0xF1]

/-- `goodFrame` with a consumer that has these visits to come. -/
def visited (vs : List Visit) : State :=
  { goodFrame with visits := vs }

/-- `s` with one input pending. -/
def issued (x : Input) (s : State) : State :=
  { s with pending := [x] }

/-- What one instruction leaves in some of the fields. -/
def after {α : Type} (i : Instr) (s : State) (f : State → α) : Option α :=
  (Result.state? (exec i s)).map f

/-! ### Decoding: each constructor's word, bit by bit (R96 to R98, R88, R89) -/

theorem test_decode_rsvd0 : decode .P0 (.cmd 0b000_01011010) = .ok .rsvd0 := by decide
theorem test_decode_feed : decode .P0 (.cmd 0b001_11010001) = .ok (.feed 0xD1) := by decide
theorem test_decode_cfgcb : decode .P0 (.cmd 0b010_11111110) = .ok (.cfgcb false) ∧ decode .P0 (.cmd 0b010_00000001) = .ok (.cfgcb true) := by
  decide
theorem test_decode_rdcnt : decode .P0 (.cmd 0b011_11111111) = .ok .rdcnt := by decide
theorem test_decode_begin : decode .P0 (.cmd 0b100_00000001) = .ok (.beginFrame 0x01) := by decide
theorem test_decode_write : decode .P0 (.cmd 0b101_01111110) = .ok (.writeByte 0x7E) := by decide
theorem test_decode_end : decode .P0 (.cmd 0b110_10000000) = .ok .endFrame := by decide
theorem test_decode_rsvd7 : decode .P0 (.cmd 0b111_00000001) = .ok .rsvd7 := by decide
theorem test_decode_rx_esc : decode .P0 (.rxb 0b1_01111101) = .ok (.rxEsc true) ∧ decode .P0 (.rxb 0b0_01111101) = .ok (.rxEsc false) := by
  decide
theorem test_decode_rx_unesc : decode .P0 (.rxb 0b1_01011110) = .ok (.rxUnesc 0x5E) ∧ decode .P0 (.rxb 0b1_01111110) = .ok (.rxUnesc 0x7E) := by
  decide
theorem test_decode_rx_flag : decode .P0 (.rxb 0b0_01111110) = .ok .rxFlag := by decide
theorem test_decode_rx_data : decode .P0 (.rxb 0b0_00000001) = .ok (.rxData 0x01) := by decide
theorem test_decode_tx_lit : decode .P0 (.txb [0b00000010]) = .ok (.txLit 0x02) := by decide
theorem test_decode_tx_escseq :
    decode .P0 (.txb [0b01111101, 0b01011110]) = .ok (.txEscseq 0x7E) ∧ decode .P0 (.txb [0b01111101, 0b01011101]) = .ok (.txEscseq 0x7D) := by
  decide
theorem test_decode_tx_flag : decode .P0 (.txb [0b01111110]) = .ok .txFlag := by decide
theorem test_decode_rejects : decode .P0 (.txb []) = .error .empty ∧ decode .P0 (.txb [0x7D]) = .error .loneEscape ∧
    decode .P0 (.txb [0x7D, 0x41]) = .error .needlessEscape ∧ decode .P0 (.txb [0x41, 0x42]) = .error .trailing := by
  decide
theorem test_decode_p1 : decode .P1 (.rxb 0b0_11000000) = .ok .rxFlag ∧ decode .P1 (.rxb 0b0_01111110) = .ok (.rxData 0x7E) := by decide
theorem test_table_word : decodeTableWord 16 0x57E = some (.writeByte 0x7E) ∧ decodeTableWord 9 0x17E = some (.rxUnesc 0x7E) ∧
    decodeTableWord 8 0x7E = some .txFlag ∧ decodeTableWord 16 0x5E7D = some (.txEscseq 0x7E) ∧ decodeTableWord 8 0x7D = none := by
  decide
theorem test_fetch_runs : step (State.reset.withFetchWord 16 0x402) = exec (.beginFrame 0x02) State.reset := rfl
/-- R104: a transmit form is output, and the `WRITE` that emits it is what runs. -/
theorem test_fetch_runs_emitting : step (State.reset.withFetchWord 8 0x41) = exec (.txLit 0x41) State.reset ∧
    step (State.reset.withFetchWord 16 0x5E7D) = exec (.txEscseq 0x7E) State.reset ∧
    step (State.reset.withFetchWord 8 0x7E) = exec .endFrame State.reset ∧ State.reset.withFetchWord 8 0x7D = State.reset :=
  ⟨rfl, rfl, rfl, by decide⟩
theorem test_fetch_runs_received : step (State.reset.withFetchWord 9 0x15E) = exec (.rxUnesc 0x5E) (State.reset.setEsc true) := rfl

/-! ### Well-formedness: one ill-formed term for each check -/

theorem test_wf_unesc_refuses_escape : Instr.wf .P0 (.rxUnesc 0x7D) = false := by decide
theorem test_wf_data_refuses_flag : Instr.wf .P0 (.rxData 0x7E) = false := by decide
theorem test_wf_data_refuses_escape : Instr.wf .P0 (.rxData 0x7D) = false := by decide
theorem test_wf_lit_refuses_flag : Instr.wf .P0 (.txLit 0x7E) = false := by decide
theorem test_wf_lit_refuses_escape : Instr.wf .P0 (.txLit 0x7D) = false := by decide
theorem test_wf_escseq_refuses_ordinary : Instr.wf .P0 (.txEscseq 0x41) = false := by decide
theorem test_valid_profiles : Config.P0.Valid ∧ Config.P1.Valid := by decide
theorem test_valid_refuses_equal_markers : ¬ Config.Valid { Config.P0 with escMark := 0x7E } := by decide
theorem test_valid_refuses_zero_mask : ¬ Config.Valid { Config.P0 with mask := 0x00 } := by decide
theorem test_valid_refuses_swapping_mask : ¬ Config.Valid { Config.P0 with mask := 0x03 } := by decide
theorem test_valid_refuses_zero_init : ¬ Config.Valid { Config.P0 with crcInit := 0x0000 } := by decide
theorem test_valid_refuses_small_buffer : ¬ Config.Valid { Config.P0 with cap := 2 } := by decide
theorem test_valid_refuses_no_counter : ¬ Config.Valid { Config.P0 with cntw := 0 } := by decide

/-! ### The CRC (CV-12, CV-16, P1's sum) -/

theorem test_crc_check_value : crcBlock .P0 [0x31, 0x32, 0x33, 0x34, 0x35, 0x36, 0x37, 0x38, 0x39] = 0x29B1 := by decide +kernel
theorem test_crc_update : crcUpdate .P0 0x1234 0x56 = 0x3C40 := by decide
theorem test_crc_p1 : crcBlock .P1 [0xC0, 0xDB, 0x01] = 0x019D := by decide

/-! ### One step -/

/-- R98. -/
theorem test_rsvd0_nothing : exec .rsvd0 goodFrame = .next goodFrame := rfl
/-- R98, DV-26. -/
theorem test_rsvd7_nothing : exec .rsvd7 goodFrame = .next goodFrame := rfl
/-- R140's example. -/
theorem test_feed_stores : after (.feed 0x41) State.reset (fun t => (t.wr, Memory.read t.buf 0)) = some (1, 0x41) := by decide
/-- R154: `ESC FLAG` buffers `0x5E` and is no boundary. -/
theorem test_feed_escaped_flag : after (.feed 0x7E) (escaping [0x01]) (fun t => (t.wr, t.esc, Memory.read t.buf 1)) = some (2, false, 0x5E) := by
  decide
/-- R173's example. -/
theorem test_cfgcb_sets : after (.cfgcb true) State.reset State.cbEn = some true := by decide
/-- R175: total first, checksum second. -/
theorem test_rdcnt_pair : after .rdcnt { State.reset with totErrCnt := 2, crcErrCnt := 1 } State.cntLog = some [(2, 1)] := by decide
/-- R122's example. -/
theorem test_begin : after (.beginFrame 0x01) State.reset (fun t => (t.txOut, t.crcTx, t.txLock)) = some ([0x01], 0xF1D1, true) := by decide
/-- R123's example. -/
theorem test_write_escapes : after (.writeByte 0x7E) { State.reset with crcTx := 0xC1B2 } (fun t => (t.txOut, t.crcTx)) =
    some ([0x7D, 0x5E], 0xE434) := by decide
/-- R124's example. -/
theorem test_end : after .endFrame { State.reset with crcTx := 0xF1D1, txLock := true } (fun t => (t.txOut, t.crcTx, t.txLock)) =
    some ([0xD1, 0xF1, 0x7E], 0xFFFF, false) := by decide
/-- R126: a reserved checksum byte is escaped. -/
theorem test_end_escapes_checksum : after .endFrame { State.reset with crcTx := 0x7EA9 } State.txOut = some [0xA9, 0x7D, 0x5E, 0x7E] := by decide
/-- R141: `esc` stays set. -/
theorem test_rx_esc : after (.rxEsc true) (escaping [0x01]) (fun t => (t.wr, t.esc)) = some (1, true) := by decide
/-- R142's example. -/
theorem test_rx_unesc : after (.rxUnesc 0x5E) (escaping [0x02]) (fun t => (t.wr, t.esc, Memory.read t.buf 1)) = some (2, false, 0x7E) := by decide
/-- R143's example: two bytes are too short. -/
theorem test_rx_flag_short : after .rxFlag (holding [0x41, 0x42]) (fun t => (t.wr, t.totErrCnt, t.crcErrCnt, t.outcomeLog)) =
    some (0, 1, 0, [.tooShort]) := by decide
/-- R150's example, SV-1. -/
theorem test_rx_flag_delivers : after .rxFlag goodFrame (fun t => (t.wr, t.totErrCnt, t.dispatchLog)) = some (0, 0, [⟨0x01, []⟩]) := by decide
/-- R144's example. -/
theorem test_rx_data_zero : after (.rxData 0x00) (holding [0x01, 0x02, 0x03]) (fun t => (t.wr, Memory.read t.buf 3)) = some (4, 0x00) := by decide
/-- R145's example: a full buffer discards. -/
theorem test_rx_data_overrun : after (.rxData 0x55) (holding [1, 2, 3, 4, 5, 6, 7, 8]) (fun t => (t.wr, t.err, Memory.read t.buf 8)) =
    some (8, true, 0x00) := by decide
/-- R121's example, the two halves of the byte-write primitive. -/
theorem test_tx_escseq : after (.txEscseq 0x7E) State.reset (fun t => (t.txOut, t.crcTx)) = some ([0x7D, 0x5E], 0x7EA9) := by decide
/-- EV-1's first byte. -/
theorem test_tx_lit : after (.txLit 0x01) State.reset (fun t => (t.txOut, t.crcTx)) = some ([0x01], 0xF1D1) := by decide
/-- R124: raw, and the checksum does not see it. -/
theorem test_tx_flag : after .txFlag State.reset (fun t => (t.txOut, t.crcTx)) = some ([0x7E], 0xFFFF) := by decide
/-- R211: reset in mid frame counts nothing. -/
theorem test_reset_event : Result.state? (step (issued .reset { overrun with totErrCnt := 3, txLock := true })) =
    some { State.reset with buf := overrun.buf } := by decide

/-! ### Witnesses: states that meet the hypotheses of the statements -/

theorem wit_config : Config.P0.Valid ∧ Config.P1.Valid ∧ Config.Valid { Config.P0 with pad := 2, cntw := 1, cap := 3 } := by decide

theorem wit_DecodeOfEncodeIsTheInstruction : Config.P0.Valid ∧ Instr.wf .P0 (.rxUnesc 0x7E) = true ∧ Instr.wf .P0 (.rxData 0xFF) = true ∧
    Instr.wf .P0 (.txLit 0x00) = true ∧ Instr.wf .P0 (.txEscseq 0x7D) = true ∧ Instr.wf .P0 (.feed 0x7D) = true := by decide

theorem wit_ReceiveFormsPartitionAllPairs : Config.P0.Valid ∧ decodeRx .P0 (rxPattern true 0x7D) = .rxEsc true ∧
    decodeRx .P0 (rxPattern true 0x7E) = .rxUnesc 0x7E ∧ decodeRx .P0 (rxPattern false 0x7E) = .rxFlag ∧
    decodeRx .P0 (rxPattern false 0x7C) = .rxData 0x7C := by decide

theorem wit_TransmitFormsReadBack : Config.P1.Valid ∧ decodeTxHead .P1 [0xDB, 0xE0, 0x01] = .ok (.txEscseq 0xC0, [0x01]) := by decide

theorem wit_StepRunsTheDecodedInstruction : Config.P0.Valid ∧ (issued (.cmd 0x600) State.reset).pending = [.cmd 0x600] ∧
    (issued (.rxByte 0x7E) State.reset).pending = [.rxByte 0x7E] := by decide

theorem wit_StepRunsTheDecodedInstruction_issue : (escaping [0x01]).cfg.Valid ∧ Instr.wf .P0 (.rxUnesc 0x7E) = true ∧
    Instr.rxUnesc 0x7E ≠ .txFlag ∧ (∀ e, Instr.rxUnesc 0x7E = .rxEsc e → (escaping [0x01]).esc = e) ∧ (∀ b, Instr.rxUnesc 0x7E = .rxUnesc b → (escaping [0x01]).esc = true) ∧
    (Instr.rxUnesc 0x7E = .rxFlag → (escaping [0x01]).esc = false) ∧ (∀ b, Instr.rxUnesc 0x7E = .rxData b → (escaping [0x01]).esc = false) :=
  ⟨by decide, by decide, by decide, fun _ h => (by cases h), fun _ _ => rfl, fun h => (by cases h), fun _ h => (by cases h)⟩

theorem wit_FeedIsClassifiedInOrder : (issued (.cmd (opWord 0b001 0x7D)) State.reset).pending = [.cmd 0b001_01111101] ∧
    (issued (.rxByte 0x7D) goodFrame).cfg.Valid := by decide

theorem wit_StepWithoutInputChangesNothing : goodFrame.cfg.Valid ∧ goodFrame.pending = [] := by decide

theorem wit_BrokenConfigurationsAreRefused :
    (State.resetWith { Config.P0 with escMark := 0x7E }).cfg.flag = 0x7E ∧ (State.resetWith { Config.P0 with mask := 0 }).cfg.mask = 0 ∧
    (0x7E ^^^ 0x7D : Byte) = 0x03 ∧ (State.resetWith { Config.P0 with crcInit := 0 }).cfg.crcInit = 0 ∧
    (State.resetWith { Config.P0 with cap := 2 }).cfg.cap < 3 ∧ (State.resetWith { Config.P0 with cntw := 0 }).cfg.cntw < 1 ∧
    step (State.resetWith { Config.P0 with mask := 0x03 }) = .refused .badConfig :=
  ⟨rfl, rfl, rfl, rfl, by decide, by decide, rfl⟩

theorem wit_ResetMayComeAtAnyTime : (issued .reset overrun).cfg.Valid ∧ (issued .reset overrun).pending = .reset :: [] := by decide

theorem wit_OrdinaryByteIsPushed : (holding [1, 2, 3, 4, 5, 6, 7]).CursorOk ∧ (holding [1, 2, 3, 4, 5, 6, 7]).BufferOk ∧
    (holding [1, 2, 3, 4, 5, 6, 7]).wr + 1 = 8 ∧ (holding [1, 2, 3, 4, 5, 6, 7, 8]).CursorOk ∧ (holding [1, 2, 3, 4, 5, 6, 7, 8]).BufferOk ∧
    (holding [1, 2, 3, 4, 5, 6, 7, 8]).wr = 0 + 8 ∧ State.reset.esc = false ∧ (0x7F : Byte) ≠ 0x7E ∧ (0x7F : Byte) ≠ 0x7D := by decide

theorem wit_EscapedByteIsUnmaskedAndPushed : (escaping [1, 2, 3, 4, 5, 6, 7, 8]).CursorOk ∧ (escaping [1, 2, 3, 4, 5, 6, 7, 8]).BufferOk ∧
    (escaping []).CursorOk ∧ (escaping []).BufferOk ∧ (escaping []).esc = true ∧ (0x7E : Byte) ≠ 0x7D := by decide

theorem wit_LatchedErrorDiscardsUntilTheBoundary : overrun.cfg.Valid ∧ overrun.Inv ∧ overrun.err = true ∧ overrun.esc = false ∧
    after (.feed 0x7E) overrun State.outcomeLog = some [.tooLong] ∧ after (.feed 0x7F) overrun State.err = some true := by decide

theorem wit_NeedlessEscapeHasTheSameEffect : State.reset.cfg.Valid ∧ State.reset.esc = false ∧ (0x41 : Byte) ≠ 0x7D ∧ (0x41 : Byte) ≠ 0x7E ∧
    (0x41 ^^^ 0x20 : Byte) ≠ 0x7D := by decide

theorem wit_TooLongFrameIsCountedOnce : overrun.cfg.Valid ∧ overrun.Inv ∧ overrun.err = true := by decide

theorem wit_SyncFrameCountsNothing : State.reset.cfg.Valid ∧ State.reset.Inv ∧ State.reset.err = false ∧ len State.reset = 0 := by decide

theorem wit_TooShortFrameIsCounted : (holding [0x41]).Inv ∧ (holding [0x41]).err = false ∧ len (holding [0x41]) = 1 ∧
    (holding [0x41, 0x42]).Inv ∧ (holding [0x41, 0x42]).err = false ∧ len (holding [0x41, 0x42]) = 2 ∧ (holding [0x41]).cfg.Valid := by decide

/-- Counters of one bit: the first error counts, and at `2^1 - 1` the next one does not (R33). -/
def oneBit (n : Nat) : State :=
  { holding [0x41] with cfg := { Config.P0 with cntw := 1 }, totErrCnt := n }

theorem wit_counters_at_their_bound : (oneBit 0).cfg.Valid ∧ (oneBit 0).Inv ∧ 0 < 2 ^ (oneBit 0).cfg.cntw - 1 ∧ (oneBit 1).Inv ∧
    ¬ 1 < 2 ^ (oneBit 1).cfg.cntw - 1 ∧ after .rxFlag (oneBit 0) State.totErrCnt = some 1 ∧
    after .rxFlag (oneBit 1) State.totErrCnt = some 1 := by decide

theorem wit_ChecksumMismatchCountsBoth : (holding [0x01, 0xD1, 0xF0]).cfg.Valid ∧ (holding [0x01, 0xD1, 0xF0]).Inv ∧
    (holding [0x01, 0xD1, 0xF0]).err = false ∧ 3 ≤ len (holding [0x01, 0xD1, 0xF0]) ∧ ¬ ChecksumAgrees (holding [0x01, 0xD1, 0xF0]) := by
  refine ⟨by decide, by decide, by decide, by decide, ?_⟩
  unfold ChecksumAgrees
  decide

theorem wit_GoodFrameIsDispatched : goodFrame.cfg.Valid ∧ goodFrame.Inv ∧ goodFrame.err = false ∧ 3 ≤ len goodFrame ∧
    ChecksumAgrees goodFrame ∧ goodFrame.cbEn = true ∧ goodFrame.visits = [] ∧ (visited [⟨[], true⟩]).visits = ⟨[], true⟩ :: [] := by
  refine ⟨by decide, by decide, by decide, by decide, ?_, by decide, by decide, by decide⟩
  unfold ChecksumAgrees
  decide

theorem wit_GoodFrameIsDispatched_full : (holding [0x10, 0x01, 0x02, 0x03, 0x04, 0x05, 0x9C, 0x96]).err = false ∧
    (holding [0x10, 0x01, 0x02, 0x03, 0x04, 0x05, 0x9C, 0x96]).Inv ∧
    len (holding [0x10, 0x01, 0x02, 0x03, 0x04, 0x05, 0x9C, 0x96]) = 8 ∧
    ChecksumAgrees (holding [0x10, 0x01, 0x02, 0x03, 0x04, 0x05, 0x9C, 0x96]) := by
  refine ⟨by decide, by decide, by decide, ?_⟩
  unfold ChecksumAgrees
  decide +kernel

theorem wit_GoodFrameWithoutCallbackIsLost : (goodFrame.setCbEn false).cfg.Valid ∧ (goodFrame.setCbEn false).Inv ∧
    (goodFrame.setCbEn false).err = false ∧ 3 ≤ len (goodFrame.setCbEn false) ∧ ChecksumAgrees (goodFrame.setCbEn false) ∧
    (goodFrame.setCbEn false).cbEn = false := by
  refine ⟨by decide, by decide, by decide, by decide, ?_, by decide⟩
  unfold ChecksumAgrees
  decide

theorem wit_OutcomesComeFromBoundariesOnly : goodFrame.cfg.flag ≠ goodFrame.cfg.escMark ∧
    after (.feed 0x41) goodFrame State.outcomeLog = some [] ∧ after (.feed 0x7E) (escaping []) State.outcomeLog = some [] ∧
    after (.feed 0x7E) goodFrame State.outcomeLog = some [goodFrame.outcome] ∧ after .rxFlag (escaping []) State.outcomeLog = some [.sync] := by
  decide

/-- A reply sent, and the callback removed, from inside the dispatch. -/
def replying : State :=
  visited [⟨[.beginFrame 0x01, .endFrame, .cfgcb false], true⟩]

theorem wit_ConsumerOperationsRunBeforeTheReset : replying.cfg.Valid ∧ replying.Inv ∧ replying.outcome = .delivered ∧
    replying.visits = ⟨[.beginFrame 0x01, .endFrame, .cfgcb false], true⟩ :: [] ∧
    (∀ i ∈ [Command.beginFrame 0x01, .endFrame, .cfgcb false], Command.allowedInDispatch i = true) ∧
    after .rxFlag replying (fun t => (t.txOut, t.cbEn, t.dispatchLog.length)) = some ([0x01, 0xD1, 0xF1, 0x7E], false, 1) := by decide

theorem wit_ConfigureAndReadInsideADispatch : (visited [⟨[.cfgcb false, .rdcnt], true⟩]).cfg.Valid ∧
    (visited [⟨[.cfgcb false, .rdcnt], true⟩]).Inv ∧ (visited [⟨[.cfgcb false, .rdcnt], true⟩]).outcome = .delivered ∧
    (visited [⟨[.cfgcb false, .rdcnt], true⟩]).visits = ⟨[.cfgcb false, .rdcnt], true⟩ :: [] := by decide

theorem wit_FeedInsideADispatchIsRefused :
    (visited [⟨[.rdcnt, .feed 0x41], true⟩]).outcome = .delivered ∧
    (visited [⟨[.rdcnt, .feed 0x41], true⟩]).visits = ⟨[.rdcnt] ++ .feed 0x41 :: [], true⟩ :: [] := by decide

theorem wit_ConsumerThatNeverReturnsIsStuck : (visited [⟨[.rdcnt], false⟩]).outcome = .delivered ∧
    (visited [⟨[.rdcnt], false⟩]).visits = ⟨[.rdcnt], false⟩ :: [] ∧ (∀ i ∈ [Command.rdcnt], Command.allowedInDispatch i = true) := by decide

theorem wit_TwoDelimitersResynchronise : (escaping [0x41]).cfg.Valid ∧ (escaping [0x41]).Inv ∧ (escaping [0x41]).ConsumerBehaves ∧
    goodFrame.Inv ∧ goodFrame.ConsumerBehaves ∧ goodFrame.esc = false := by decide

theorem wit_CapacityCountsContentBytes : (holding []).cfg.Valid ∧ AtBoundary (holding []) ∧
    (holding []).cfg.cap = [0x7E, 0x7D, 1, 2, 3, 4, 5, 6].length ∧ (holding []).cfg.cap < [0x7E, 0x7D, 1, 2, 3, 4, 5, 6, 7].length :=
  ⟨by decide, ⟨rfl, rfl, rfl, by decide⟩, rfl, by decide⟩

/-- EV-7's message: one byte too many. -/
theorem wit_OversizeMessageEndsTooLong : (holding []).cfg.Valid ∧ AtBoundary (holding []) ∧
    (holding []).cfg.cap < [1, 2, 3, 4, 5, 6].length + 3 :=
  ⟨by decide, ⟨rfl, rfl, rfl, by decide⟩, by decide⟩

/-- EV-6's message: exactly full. -/
theorem wit_DecoderRecoversEveryEncodedMessage : (holding []).cfg.Valid ∧ AtBoundary (holding []) ∧ (holding []).cbEn = true ∧
    (holding []).visits = [] ∧ [1, 2, 3, 4, 5].length + 3 ≤ (holding []).cfg.cap :=
  ⟨by decide, ⟨rfl, rfl, rfl, by decide⟩, rfl, rfl, by decide⟩

theorem wit_LoopBackDeliversTheMessage : (holding []).cfg.Valid ∧ AtBoundary (holding []) ∧ (holding []).cbEn = true ∧
    (holding []).visits = [] ∧ ([] : List Byte).length + 3 ≤ (holding []).cfg.cap :=
  ⟨by decide, ⟨rfl, rfl, rfl, by decide⟩, rfl, rfl, by decide⟩

theorem wit_PutEscapesAndAccounts : State.reset.cfg.Valid ∧ (0x7D : Byte) = State.reset.cfg.escMark ∧ (0x7E : Byte) = State.reset.cfg.flag := by
  decide

/-- SV-2's bytes: one `ESC`, one `FLAG`. -/
theorem wit_WireFrameHasOneDelimiter : State.reset.cfg.Valid ∧ (Result.state? (runOps (send 0x02 [0x7E]) State.reset)).map State.txOut =
    some ([] ++ ([0x02] ++ 0x7D :: [0x5E, 0x34, 0xE4, 0x7E])) := by decide +kernel

theorem wit_EveryCrcUpdateIsRepresented :
    (State.resetWith { Config.P0 with crcAlg := .table [((0xFFFF, 0x01), 0xF1D1)] }).cfg.crcAlg = .table [((0xFFFF, 0x01), 0xF1D1)] := by decide

theorem wit_EveryStepKeepsTheInvariant : (issued (.rxByte 0x7E) goodFrame).Inv ∧
    (Result.state? (step (issued (.rxByte 0x7E) goodFrame))).isSome = true := by decide

theorem wit_EveryStepKeepsCountersEqualToOutcomes : (issued (.rxByte 0x7E) (holding [0x41])).CountsMatch ∧
    (Result.state? (step (issued (.rxByte 0x7E) (holding [0x41])))).map State.totErrCnt = some 1 := by decide

theorem wit_EveryStepKeepsCounterReadsMonotone : (issued (.cmd 0x300) { State.reset with cntLog := [(0, 0)], totErrCnt := 1 }).ReadsMonotone ∧
    (Result.state? (step (issued (.cmd 0x300) { State.reset with cntLog := [(0, 0)], totErrCnt := 1 }))).map State.cntLog =
      some [(0, 0), (1, 0)] := by decide

theorem wit_NothingWritesOutsideTheContentRegion : (issued (.rxByte 0x41) overrun).Inv ∧ (issued (.rxByte 0x41) overrun).err = true ∧
    (Result.state? (step (issued (.rxByte 0x41) overrun))).isSome = true := by decide

theorem wit_OperationsKeepParametersAndExtendHistories : after .endFrame State.reset State.txOut = some [0xFF, 0xFF, 0x7E] := by decide

/-- One state that meets the invariant, and one that no run reaches: `wr` outside the buffer. -/
theorem wit_EveryOperationSequenceCompletes : (visited [⟨[.rdcnt, .writeByte 0x7E], true⟩]).Inv ∧
    (visited [⟨[.rdcnt, .writeByte 0x7E], true⟩]).ConsumerBehaves ∧ (visited [⟨[.rdcnt, .writeByte 0x7E], true⟩]).cfg.Valid ∧
    ¬ State.Inv { goodFrame with wr := 9 } ∧ State.ConsumerBehaves { goodFrame with wr := 9 } := by decide

/-- Each stop occurs. -/
theorem wit_StopsAreForbiddenUsesOnly : step (State.resetWith { Config.P0 with mask := 0 }) = .refused .badConfig ∧
    step (issued (.rxByte 0x7E) (visited [⟨[.feed 0x00], true⟩])) = .refused .feedInsideDispatch ∧
    step (issued (.rxByte 0x7E) (visited [⟨[], false⟩])) = .fault .consumerNeverReturns :=
  ⟨rfl, rfl, rfl⟩

theorem wit_EmittedBytesAreWholeForms : (issued (.cmd 0x600) State.reset).pending.head? ≠ some .reset ∧
    (Result.state? (step (issued (.cmd 0x600) State.reset))).map State.txOut = some [0xFF, 0xFF, 0x7E] ∧
    (issued (.cmd 0x600) State.reset).visits = [] ∧ State.reset.cfg.flag ∈ ([0xFF, 0xFF, 0x7E] : List Byte) := by decide

theorem wit_AgentsShareNoState : Instr.onEncoder .endFrame = true ∧ (Result.state? (exec .endFrame goodFrame)).isSome = true ∧
    Instr.onDecoder .rxFlag = true ∧ (Result.state? (exec .rxFlag goodFrame)).isSome = true ∧ goodFrame.visits = [] := by decide

theorem wit_DecoderAndEncoderOperationsCommute : Instr.onDecoder (.feed 0x7E) = true ∧ Instr.onEncoder (.beginFrame 0x7E) = true ∧
    goodFrame.visits = [] := by decide

/-- A stale byte above `wr` is the only difference. -/
theorem wit_StaleBufferBytesAreUnobservable : SameButStale (holding [0x41]) { holding [0x41] with buf := cells 0 [0x41, 0x55] } := by
  refine ⟨rfl, by decide, by decide, fun a _ h => ?_⟩
  obtain rfl : a = 0 := Nat.lt_one_iff.mp h
  rfl

theorem wit_StaleBufferBytesAreUnobservable_differ : (holding [0x41]).buf ≠ cells 0 [0x41, 0x55] ∧
    (Result.state? (step (issued (.rxByte 0x42) (holding [0x41])))).isSome = true ∧
    step (issued (.rxByte 0x7E) (visited [⟨[], false⟩])) = .fault .consumerNeverReturns ∧
    step (issued (.rxByte 0x7E) (visited [⟨[.feed 0x00], true⟩])) = .refused .feedInsideDispatch :=
  ⟨by decide, by decide, rfl, rfl⟩

end Sys2Proof.Tests
end

/-! ### The receive forms of R88 -/

namespace Sys2Proof

/-- Priority 1 of R88. -/
theorem decodeRx_escMark (c : Config) (e : Bool) : decodeRx c (rxPattern e c.escMark) = .rxEsc e := by
  simp [decodeRx, rxForm]

/-- Priority 2 of R88. -/
theorem decodeRx_pending {c : Config} {b : Byte} (hEsc : b ≠ c.escMark) : decodeRx c (rxPattern true b) = .rxUnesc b := by
  simp [decodeRx, rxForm, hEsc]

/-- Priority 3 of R88; the markers are distinct (R9), so the delimiter is not taken for the escape-marker. -/
theorem decodeRx_flag {c : Config} (hv : c.Valid) : decodeRx c (rxPattern false c.flag) = .rxFlag := by
  obtain ⟨hne, -⟩ := hv
  simp [decodeRx, rxForm, hne]

/-- Priority 4 of R88. -/
theorem decodeRx_ordinary {c : Config} {b : Byte} (hb : c.reserved b = false) : decodeRx c (rxPattern false b) = .rxData b := by
  obtain ⟨hFlag, hEsc⟩ := (Config.not_reserved_iff c b).mp hb
  simp [decodeRx, rxForm, hFlag, hEsc]

/-- Settles O4: the pair lies in one row of R88's table, and that row's form is the one decoded. -/
theorem receiveFormsPartitionAllPairs : Obligations.ReceiveFormsPartitionAllPairs := by
  intro c hv e b
  by_cases hEsc : b = c.escMark
  · subst hEsc
    simp [decodeRx_escMark, Instr.wf, hv.1.symm]
  cases e with
  | true => simp [decodeRx_pending hEsc, Instr.wf, hEsc]
  | false =>
    by_cases hFlag : b = c.flag
    · subst hFlag
      simp [decodeRx_flag hv, Instr.wf, hEsc]
    · have hb : c.reserved b = false := (Config.not_reserved_iff c b).mpr ⟨hFlag, hEsc⟩
      simp [decodeRx_ordinary hb, Instr.wf, hb, hEsc, hFlag]

end Sys2Proof

/-! ### The receive forms and the frame boundary of 42_decoder.md -/

namespace Sys2Proof.Machine

open Sys2Proof.Claims

/-- What a buffer write attempt leaves as it was, whatever becomes of the byte. -/
theorem push_frame {s t : State} {v : Byte} (h : push v s = .next t) :
    t.esc = s.esc ∧ SameStatus s t ∧ SameEncoder s t ∧ SameLogs s t ∧ SameSurround s t := by
  rcases push_next h with ⟨-, rfl⟩ | ⟨-, -, rfl⟩ <;> simp [SameStatus, SameEncoder, SameLogs, SameSurround]

/-- Inside the range of R22 a buffer write attempt is R145's: discarded at the end index, stored below it. -/
theorem push_pushed {s t : State} {v : Byte} (hc : s.CursorOk) (hw : Memory.wf s.buf) (h : push v s = .next t) : Pushed v s t := by
  obtain ⟨hpad, hend, -⟩ := hc
  rcases push_next h with ⟨hNoRoom, rfl⟩ | ⟨-, hRoom, rfl⟩
  · have hFull : s.wr = s.cfg.bufEnd := by omega
    exact ⟨fun _ => ⟨rfl, rfl, fun _ => rfl⟩, fun hne => absurd hFull hne⟩
  · exact ⟨fun hFull => absurd hFull (Nat.ne_of_lt hRoom),
      fun _ => ⟨rfl, rfl, Memory.read_write_same hw _ _, fun _ hne => Memory.read_write_other _ _ hne⟩⟩

/-- With an error latched the buffer is full (R32 (b)), so a content byte changes nothing at all (R153). -/
theorem push_latched {s : State} (v : Byte) (hc : s.CursorOk) (herr : s.err = true) : push v s = .next s := by
  obtain ⟨-, -, hFull⟩ := hc
  have hLatched : s.latchErr = s := by rw [State.latchErr, ← herr]
  rw [push_full v (hFull herr), hLatched]

/-- With an error latched every byte but an un-escaped `FLAG` writes `esc` alone (R153). -/
theorem execFeed_latched {s : State} {b : Byte} (hc : s.CursorOk) (herr : s.err = true)
    (hb : ¬ (s.esc = false ∧ b = s.cfg.flag)) : execFeed b s = .next (s.setEsc (decide (b = s.cfg.escMark))) := by
  rcases execFeed_cases b s with ⟨rfl, -⟩ | ⟨hEsc, -, h⟩ | ⟨-, he, hFlag, -⟩ | ⟨he, hr, h⟩
  · rw [execFeed_esc, decide_eq_true rfl]
  · rw [h, decide_eq_false hEsc]
    exact push_latched _ hc herr
  · exact absurd ⟨he, hFlag⟩ hb
  · rw [h, decide_eq_false ((Config.not_reserved_iff _ _).mp hr).2, ← he]
    exact push_latched _ hc herr

theorem State.outcome_tooLong {s : State} (herr : s.err = true) : s.outcome = .tooLong := by
  simp [State.outcome, herr]

theorem State.outcome_sync {s : State} (herr : s.err = false) (hn : len s = 0) : s.outcome = .sync := by
  have hLen : s.contentLen = 0 := hn
  simp [State.outcome, herr, hLen]

/-- Both ways to reach a boundary answer the same, and without a dispatch no consumer takes part (R143, R152). -/
theorem boundaryAnswers_dropped {s : State} (hv : s.cfg.Valid) (ho : s.outcome ≠ .delivered) :
    BoundaryAnswers s s.validate.boundaryReset := by
  have h := execRxFlag_dropped ho
  exact ⟨h, fun he => (execFeed_flag hv he).trans h⟩

theorem boundaryDone_dropped (s : State) : BoundaryDone s s.validate.boundaryReset := by
  simp [BoundaryDone, SameMemory, SameEncoder]

end Sys2Proof.Machine

namespace Sys2Proof

open Sys2Proof.Machine Sys2Proof.Claims

/-- Settles O12: the form whose condition comes first ignores everything but the byte. -/
theorem escapeMarkerOnlySetsEsc : Obligations.EscapeMarkerOnlySetsEsc := by
  intro s
  refine ⟨s.setEsc true, execFeed_esc s, fun _ => rfl, ?_⟩
  simp [SameStatus, SameMemory, SameEncoder, SameLogs, SameSurround]

/-- Settles O13: `RX.DATA` is the buffer write attempt of the byte, and `FEED` selects it for an ordinary byte. -/
theorem ordinaryByteIsPushed : Obligations.OrdinaryByteIsPushed := by
  intro s b hc ⟨hw, _⟩
  obtain ⟨t, ht⟩ := push_completes b s
  have feed_data : s.esc = false → b ≠ s.cfg.escMark → b ≠ s.cfg.flag → exec (.feed b) s = .next t := fun he hEsc hFlag =>
    (execFeed_data ((Config.not_reserved_iff _ _).mpr ⟨hFlag, hEsc⟩) he).trans ht
  exact ⟨t, ht, feed_data, push_pushed hc hw ht, push_frame ht⟩

/-- Settles O14: `RX.UNESC` is the buffer write attempt of the un-escaped byte in the state with `esc` cleared, which differs from the
state before it in `esc` alone. -/
theorem escapedByteIsUnmaskedAndPushed : Obligations.EscapedByteIsUnmaskedAndPushed := by
  intro s b hc ⟨hw, _⟩
  obtain ⟨t, ht⟩ := push_completes (unescape s.cfg b) (s.setEsc false)
  have feed_unesc : s.esc = true → b ≠ s.cfg.escMark → exec (.feed b) s = .next t := fun he hEsc =>
    (execFeed_unesc hEsc he).trans ht
  exact ⟨t, ht, feed_unesc, push_pushed (s := s.setEsc false) hc hw ht, push_frame ht⟩

/-- Settles O15: by the two clauses, a byte that leaves the condition standing writes `esc` alone, and the un-escaped `FLAG` is a
boundary without a dispatch. -/
theorem latchedErrorDiscardsUntilTheBoundary : Obligations.LatchedErrorDiscardsUntilTheBoundary := by
  intro s b hv ⟨hc, _⟩ herr
  by_cases hb : s.esc = false ∧ b = s.cfg.flag
  · obtain ⟨he, rfl⟩ := hb
    have ho : s.outcome = .tooLong := State.outcome_tooLong herr
    obtain ⟨-, hFeed⟩ := boundaryAnswers_dropped hv (by simp [ho])
    exact ⟨_, hFeed he, by simp [SameMemory], by simp [he], by simp [ho]⟩
  · exact ⟨_, execFeed_latched hc herr hb, by simp [SameMemory], by simp [herr], fun h => absurd h hb⟩

/-- Settles O19: the outcome is `SYNC`, and validation with it records the outcome and nothing else. -/
theorem syncFrameCountsNothing : Obligations.SyncFrameCountsNothing := by
  intro s hv _ herr hn
  have ho : s.outcome = .sync := State.outcome_sync herr hn
  refine ⟨_, boundaryAnswers_dropped hv (by simp [ho]), boundaryDone_dropped s, ?_⟩
  simp [ho, FrameOutcome.isError, FrameOutcome.isCrcError]

end Sys2Proof

/-! ### What every operation keeps -/

namespace Sys2Proof.Machine

/-- `P` survives each thing that an operation, a reset or the taking of an input can do to a state. -/
structure Kept (P : State → Prop) : Prop where
  sideEffect : ∀ {s t : State}, SideEffect s t → P s → P t
  setEsc : ∀ (e : Bool) {s : State}, P s → P (s.setEsc e)
  push : ∀ {v : Byte} {s t : State}, push v s = .next t → P s → P t
  validate : ∀ {s : State}, P s → P s.validate
  setVisits : ∀ (v : List Visit) {s : State}, P s → P (s.setVisits v)
  boundaryReset : ∀ {s : State}, P s → P s.boundaryReset
  setPending : ∀ (p : List Input) {s : State}, P s → P (s.setPending p)
  resetEvent : ∀ {s : State}, P s → P s.resetEvent

theorem Kept.exec {P : State → Prop} (k : Kept P) {i : Instr} {s t : State} (h : exec i s = .next t) (hs : P s) : P t := by
  rcases exec_next h with ⟨-, hEffect⟩ | ⟨-, rfl⟩ | ⟨-, v, e, hPush⟩ | ⟨hFlag, -⟩
  · exact k.sideEffect hEffect hs
  · exact k.setEsc true hs
  · exact k.push hPush (k.setEsc e hs)
  · obtain ⟨v, u, -, hEffect, rfl⟩ := execRxFlag_next hFlag
    exact k.boundaryReset (k.sideEffect hEffect (k.setVisits v (k.validate hs)))

theorem Kept.step {P : State → Prop} (k : Kept P) {s t : State} (h : step s = .next t) (hs : P s) : P t := by
  obtain ⟨-, ⟨-, rfl⟩ | ⟨x, rest, -, rfl | ⟨i, hExec⟩⟩⟩ := step_next h
  · exact hs
  · exact k.resetEvent (k.setPending rest hs)
  · exact k.exec hExec (k.setPending rest hs)

theorem Kept.runOps {P : State → Prop} (k : Kept P) {ops : List Instr} {s t : State} (h : runOps ops s = .next t) (hs : P s) : P t := by
  induction ops generalizing s with
  | nil => exact Host.Outcome.next.inj h ▸ hs
  | cons i ops ih =>
    obtain ⟨u, hFirst, hRest⟩ := andThen_eq_next.mp h
    exact ih hRest (k.exec hFirst hs)

/-! ### The invariant of the block's own state -/

theorem State.inv_congr {s t : State} (hcfg : t.cfg = s.cfg) (hbuf : t.buf = s.buf) (hwr : t.wr = s.wr) (herr : t.err = s.err)
    (hcrc : t.crcErrCnt = s.crcErrCnt) (htot : t.totErrCnt = s.totErrCnt) : t.Inv ↔ s.Inv := by
  simp only [State.Inv, State.CursorOk, State.CountersOk, State.BufferOk, hcfg, hbuf, hwr, herr, hcrc, htot]

theorem push_keeps_inv {v : Byte} {s t : State} (h : push v s = .next t) (hs : s.Inv) : t.Inv := by
  obtain ⟨⟨hpad, hend, hFull⟩, hCounters, hwf, hBound⟩ := hs
  rcases push_next h with ⟨hNoRoom, rfl⟩ | ⟨-, hRoom, rfl⟩
  · exact ⟨⟨hpad, hend, fun _ => show s.wr = s.cfg.bufEnd by omega⟩, hCounters, hwf, hBound⟩
  · exact ⟨⟨Nat.le_succ_of_le hpad, hRoom, fun herr => absurd (hFull herr) (Nat.ne_of_lt hRoom)⟩, hCounters,
      Memory.write_wf hwf _ _, Memory.write_bound hBound hRoom⟩

/-- An outcome that counts a checksum error counts in the total too (R185). -/
theorem FrameOutcome.isError_of_isCrcError {o : FrameOutcome} (h : o.isCrcError = true) : o.isError = true := by
  cases o <;> simp_all [FrameOutcome.isError, FrameOutcome.isCrcError]

theorem State.totErrCnt_le_validate (s : State) : s.totErrCnt ≤ s.validate.totErrCnt := by
  rw [State.validate_totErrCnt]
  split
  · exact le_satInc _ _
  · exact le_rfl

theorem State.crcErrCnt_le_validate (s : State) : s.crcErrCnt ≤ s.validate.crcErrCnt := by
  rw [State.validate_crcErrCnt]
  split
  · exact le_satInc _ _
  · exact le_rfl

theorem validate_keeps_countersOk {s : State} (hs : s.CountersOk) : s.validate.CountersOk := by
  obtain ⟨hOrder, hWidth⟩ := hs
  constructor
  · cases hCrc : s.outcome.isCrcError with
    | false => simpa [hCrc] using hOrder.trans s.totErrCnt_le_validate
    | true => simpa [hCrc, FrameOutcome.isError_of_isCrcError hCrc] using satInc_mono s.cfg hOrder
  · rw [State.validate_totErrCnt, State.validate_cfg]
    split
    · exact satInc_le _ hWidth
    · exact hWidth

theorem validate_keeps_inv {s : State} (hs : s.Inv) : s.validate.Inv := by
  obtain ⟨hCursor, hCounters, hBuffer⟩ := hs
  exact ⟨by simpa [State.CursorOk] using hCursor, validate_keeps_countersOk hCounters, by simpa [State.BufferOk] using hBuffer⟩

theorem inv_atFrameStart {s : State} (hwr : s.wr = s.cfg.pad) (herr : s.err = false) (hCounters : s.CountersOk) (hBuffer : s.BufferOk) :
    s.Inv := by
  refine ⟨⟨hwr.ge, ?_, by simp [herr]⟩, hCounters, hBuffer⟩
  simp [hwr, Config.bufEnd]

theorem inv_kept : Kept State.Inv where
  sideEffect h := (State.inv_congr h.cfg h.buf h.wr h.err h.crcErrCnt h.totErrCnt).mpr
  setEsc _ := id
  push := push_keeps_inv
  validate := validate_keeps_inv
  setVisits _ := id
  boundaryReset := fun ⟨_, hCounters, hBuffer⟩ => inv_atFrameStart rfl rfl hCounters hBuffer
  setPending _ := id
  resetEvent := fun ⟨_, _, hBuffer⟩ => inv_atFrameStart rfl rfl (by simp [State.CountersOk]) hBuffer

/-! ### Counters against outcomes, and counter reads -/

/-- One more outcome is counted where it counts (R185). -/
theorem satInc_countP {c : Config} {n : Nat} {log : List FrameOutcome} {p : FrameOutcome → Bool} (o : FrameOutcome)
    (hn : n = min (2 ^ c.cntw - 1) (log.countP p)) :
    (if p o then satInc c n else n) = min (2 ^ c.cntw - 1) ((log ++ [o]).countP p) := by
  cases hp : p o with
  | true => simp [hp, hn, satInc_min]
  | false => simp [hp, hn]

theorem validate_keeps_countsMatch {s : State} (hs : s.CountsMatch) : s.validate.CountsMatch := by
  obtain ⟨hTot, hCrc, hDispatch⟩ := hs
  refine ⟨?_, ?_, ?_⟩
  · simpa using satInc_countP s.outcome hTot
  · simpa using satInc_countP s.outcome hCrc
  · by_cases ho : s.outcome = .delivered <;> simp [ho, hDispatch]

theorem countsMatch_kept : Kept State.CountsMatch where
  sideEffect h := by simp [State.CountsMatch, h.cfg, h.crcErrCnt, h.totErrCnt, h.dispatchLog, h.outcomeLog]
  setEsc _ := id
  push h := by rcases push_next h with ⟨-, rfl⟩ | ⟨-, -, rfl⟩ <;> exact id
  validate := validate_keeps_countsMatch
  setVisits _ := id
  boundaryReset := id
  setPending _ := id
  resetEvent := by simp [State.CountsMatch]

/-- A read returns the counters as they stand, which no earlier read exceeds. -/
theorem sideEffect_keeps_readsMonotone {s t : State} (h : SideEffect s t) (hs : s.ReadsMonotone) : t.ReadsMonotone := by
  obtain ⟨hSorted, hBelow⟩ := hs
  obtain ⟨k, hReads⟩ := h.cntLog
  have hNew : ∀ r ∈ List.replicate k (s.totErrCnt, s.crcErrCnt), r = (s.totErrCnt, s.crcErrCnt) := fun r hr =>
    List.eq_of_mem_replicate hr
  rw [State.ReadsMonotone, hReads, h.totErrCnt, h.crcErrCnt]
  refine ⟨List.pairwise_append.mpr ⟨hSorted, ?_, ?_⟩, ?_⟩
  · exact List.pairwise_replicate.mpr (.inr ⟨le_rfl, le_rfl⟩)
  · intro a ha b hb
    obtain rfl := hNew b hb
    exact hBelow a ha
  · intro r hr
    rcases List.mem_append.mp hr with hOld | hr
    · exact hBelow r hOld
    · obtain rfl := hNew r hr
      exact ⟨le_rfl, le_rfl⟩

/-- The counters only rise, so they stay above every read returned. -/
theorem validate_keeps_readsMonotone {s : State} (hs : s.ReadsMonotone) : s.validate.ReadsMonotone := by
  obtain ⟨hSorted, hBelow⟩ := hs
  rw [State.ReadsMonotone, State.validate_cntLog]
  exact ⟨hSorted, fun r hr => ⟨(hBelow r hr).1.trans s.totErrCnt_le_validate, (hBelow r hr).2.trans s.crcErrCnt_le_validate⟩⟩

theorem readsMonotone_kept : Kept State.ReadsMonotone where
  sideEffect := sideEffect_keeps_readsMonotone
  setEsc _ := id
  push h := by rcases push_next h with ⟨-, rfl⟩ | ⟨-, -, rfl⟩ <;> exact id
  validate := validate_keeps_readsMonotone
  setVisits _ := id
  boundaryReset := id
  setPending _ := id
  resetEvent := by simp [State.ReadsMonotone]

/-! ### The duties of the consumer, and completion -/

theorem State.consumerBehaves_tail {s : State} (hs : s.ConsumerBehaves) : ∀ v ∈ s.visits.tail,
    v.returns = true ∧ ∀ i ∈ v.ops, Command.allowedInDispatch i = true :=
  fun v hv => hs v (List.mem_of_mem_tail hv)

/-- An operation uses up at most the oldest visit. -/
theorem exec_visits {i : Instr} {s t : State} (h : exec i s = .next t) : t.visits = s.visits ∨ t.visits = s.visits.tail := by
  rcases exec_next h with ⟨-, hEffect⟩ | ⟨-, rfl⟩ | ⟨-, v, e, hPush⟩ | ⟨hFlag, -⟩
  · exact .inl hEffect.visits
  · exact .inl rfl
  · rcases push_next hPush with ⟨-, rfl⟩ | ⟨-, -, rfl⟩ <;> exact .inl rfl
  · obtain ⟨v, u, hv, hEffect, rfl⟩ := execRxFlag_next hFlag
    rw [State.boundaryReset_visits, hEffect.visits, State.setVisits_visits]
    exact hv.imp id And.right

theorem exec_keeps_duties {i : Instr} {s t : State} (h : exec i s = .next t) (hs : s.ConsumerBehaves) : t.ConsumerBehaves := by
  intro v hv
  rcases exec_visits h with hVisits | hVisits <;> rw [hVisits] at hv
  · exact hs v hv
  · exact State.consumerBehaves_tail hs v hv

/-- A consumer that issues no `FEED` and returns lets the dispatch complete (R200). -/
theorem consumerTurn_dutiful {s : State} {v : Visit} {later : List Visit} (hv : s.visits = v :: later) (hReturns : v.returns = true)
    (hOps : ∀ i ∈ v.ops, Command.allowedInDispatch i = true) :
    ∃ u, runOps (v.ops.map Command.instr) (s.setVisits later) = .next u ∧ consumerTurn s = .next u ∧
      SideEffect (s.setVisits later) u := by
  obtain ⟨u, hRun, hConsumer, hEffect⟩ := consumerOps_allowed hOps (s.setVisits later)
  exact ⟨u, hRun, by simp [consumerTurn, hv, hConsumer, hReturns], hEffect⟩

theorem consumerTurn_completes {s : State} (hs : s.ConsumerBehaves) : ∃ t, consumerTurn s = .next t := by
  cases hv : s.visits with
  | nil => exact ⟨s, consumerTurn_idle hv⟩
  | cons v later =>
    obtain ⟨hReturns, hOps⟩ := hs v (by simp [hv])
    obtain ⟨u, -, hTurn, -⟩ := consumerTurn_dutiful hv hReturns hOps
    exact ⟨u, hTurn⟩

theorem execRxFlag_completes {s : State} (hs : s.ConsumerBehaves) : ∃ t, execRxFlag s = .next t := by
  by_cases ho : s.outcome = .delivered
  · obtain ⟨u, hTurn⟩ := consumerTurn_completes (s := s.validate) (by simpa [State.ConsumerBehaves] using hs)
    exact ⟨u.boundaryReset, by rw [execRxFlag_delivered ho, hTurn, andThen_next]⟩
  · exact ⟨_, execRxFlag_dropped ho⟩

/-- Whatever is no frame boundary completes: only a dispatch hands control to the consumer (R193). -/
theorem exec_completes_or_boundary (i : Instr) (s : State) : (∃ t, exec i s = .next t) ∨ exec i s = execRxFlag s := by
  by_cases hi : Instr.receives i = false
  · obtain ⟨t, ht, -⟩ := exec_sideEffect hi s
    exact .inl ⟨t, ht⟩
  · cases i with
    | feed c =>
      have hFeed : exec (.feed c) s = execFeed c s := rfl
      rcases execFeed_cases c s with ⟨-, h⟩ | ⟨-, -, h⟩ | ⟨-, -, -, h⟩ | ⟨-, -, h⟩ <;> rw [hFeed, h]
      · exact .inl ⟨_, rfl⟩
      · exact .inl (push_completes _ _)
      · exact .inr rfl
      · exact .inl (push_completes _ _)
    | rxEsc e => exact .inl ⟨_, rfl⟩
    | rxUnesc c => exact .inl (push_completes _ _)
    | rxFlag => exact .inr rfl
    | rxData c => exact .inl (push_completes _ _)
    | _ => exact absurd rfl hi

theorem exec_completes {s : State} (i : Instr) (hs : s.ConsumerBehaves) : ∃ t, exec i s = .next t := by
  rcases exec_completes_or_boundary i s with h | h
  · exact h
  · rw [h]
    exact execRxFlag_completes hs

theorem runOps_completes (ops : List Instr) {s : State} (hs : s.ConsumerBehaves) :
    ∃ t, runOps ops s = .next t ∧ t.ConsumerBehaves := by
  induction ops generalizing s with
  | nil => exact ⟨s, rfl, hs⟩
  | cons i ops ih =>
    obtain ⟨u, hu⟩ := exec_completes i hs
    obtain ⟨t, ht, hDuties⟩ := ih (exec_keeps_duties hu hs)
    exact ⟨t, by rw [runOps, hu, andThen_next, ht], hDuties⟩

theorem step_idle {s : State} (hv : s.cfg.Valid) (hp : s.pending = []) : step s = .next s := by
  unfold step
  rw [if_pos hv]
  simp only [hp]

/-- An input that is no instruction is the reset. -/
theorem step_reset {s : State} {x : Input} {rest : List Input} (hv : s.cfg.Valid) (hp : s.pending = x :: rest)
    (hf : s.fetchOf x = none) : step s = .next (s.setPending rest).resetEvent := by
  unfold step
  rw [if_pos hv]
  simp only [hp, hf]

theorem step_completes {s : State} (hv : s.cfg.Valid) (hs : s.ConsumerBehaves) : ∃ t, step s = .next t ∧ t.ConsumerBehaves := by
  cases hp : s.pending with
  | nil => exact ⟨s, step_idle hv hp, hs⟩
  | cons x rest =>
    cases hf : s.fetchOf x with
    | none => exact ⟨(s.setPending rest).resetEvent, step_reset hv hp hf, hs⟩
    | some i =>
      obtain ⟨t, ht⟩ := exec_completes (s := s.setPending rest) i hs
      exact ⟨t, (step_decoded hv hp hf).trans ht, exec_keeps_duties ht hs⟩

end Sys2Proof.Machine

namespace Sys2Proof

open Sys2Proof.Machine

/-- Settles O44: after reset the cursor is at `PAD`, the counters are 0 and the buffer and the histories are empty. -/
theorem resetMeetsTheInvariants : Obligations.ResetMeetsTheInvariants := by
  intro c
  refine ⟨inv_atFrameStart rfl rfl (by simp [State.CountersOk]) ⟨Memory.wf_nil, by simp⟩, ?_, ?_⟩
  · simp [State.CountsMatch]
  · simp [State.ReadsMonotone]

/-- Settles O45: the invariant survives a buffer write attempt, validation and the boundary reset; nothing else touches its fields. -/
theorem everyStepKeepsTheInvariant : Obligations.EveryStepKeepsTheInvariant :=
  fun _ _ hs h => inv_kept.step h hs

/-- Settles O46: validation alone changes counters, dispatches or outcomes, and it counts the outcome it records. -/
theorem everyStepKeepsCountersEqualToOutcomes : Obligations.EveryStepKeepsCountersEqualToOutcomes :=
  fun _ _ hs h => countsMatch_kept.step h hs

/-- Settles O47: a read returns the counters themselves, and validation only raises them. -/
theorem everyStepKeepsCounterReadsMonotone : Obligations.EveryStepKeepsCounterReadsMonotone :=
  fun _ _ hs h => readsMonotone_kept.step h hs

/-- Settles O50: a buffer write attempt always completes, and a dispatch completes when its consumer keeps its duties. -/
theorem everyOperationSequenceCompletes : Obligations.EveryOperationSequenceCompletes := by
  refine ⟨fun ops s hs => ?_, fun s hv hs => step_completes hv hs⟩
  obtain ⟨t, ht, hDuties⟩ := runOps_completes ops hs
  exact ⟨t, ht, hDuties, inv_kept.runOps ht⟩

end Sys2Proof

/-! ### The words of the three formats -/

namespace Sys2Proof

theorem decodeCmd_rsvd0 (d : Byte) : decodeCmd (opWord 0b000 d) = .rsvd0 := by simp [decodeCmd]
theorem decodeCmd_feed (d : Byte) : decodeCmd (opWord 0b001 d) = .feed d := by simp [decodeCmd]
theorem decodeCmd_cfgcb (d : Byte) : decodeCmd (opWord 0b010 d) = .cfgcb (d.getLsbD 0) := by simp [decodeCmd]
theorem decodeCmd_rdcnt (d : Byte) : decodeCmd (opWord 0b011 d) = .rdcnt := by simp [decodeCmd]
theorem decodeCmd_beginFrame (d : Byte) : decodeCmd (opWord 0b100 d) = .beginFrame d := by simp [decodeCmd]
theorem decodeCmd_writeByte (d : Byte) : decodeCmd (opWord 0b101 d) = .writeByte d := by simp [decodeCmd]
theorem decodeCmd_endFrame (d : Byte) : decodeCmd (opWord 0b110 d) = .endFrame := by simp [decodeCmd]
theorem decodeCmd_rsvd7 (d : Byte) : decodeCmd (opWord 0b111 d) = .rsvd7 := by simp [decodeCmd]

theorem txFormOf_reserved {c : Config} {b : Byte} (hb : c.reserved b = true) : Claims.txFormOf c b = .txEscseq b :=
  if_pos ((Config.reserved_iff c b).mp hb)

theorem txFormOf_ordinary {c : Config} {b : Byte} (hb : c.reserved b = false) : Claims.txFormOf c b = .txLit b :=
  if_neg (not_or.mpr ((Config.not_reserved_iff c b).mp hb))

theorem decodeTxHead_flag (c : Config) (rest : List Byte) : decodeTxHead c (c.flag :: rest) = .ok (.txFlag, rest) := by
  simp [decodeTxHead]

/-- Un-masking the second byte of an escape gives the reserved byte (R83, R89); the markers are distinct (R9). -/
theorem decodeTxHead_escseq {c : Config} (hv : c.Valid) {b : Byte} (hb : c.reserved b = true) (rest : List Byte) :
    decodeTxHead c (c.escMark :: (b ^^^ c.mask) :: rest) = .ok (.txEscseq b, rest) := by
  simp [decodeTxHead, hv.1.symm, hb]

theorem decodeTxHead_lit {c : Config} {b : Byte} (hb : c.reserved b = false) (rest : List Byte) :
    decodeTxHead c (b :: rest) = .ok (.txLit b, rest) := by
  obtain ⟨hFlag, hEsc⟩ := (Config.not_reserved_iff c b).mp hb
  simp [decodeTxHead, hFlag, hEsc]

/-- Wire bytes that are one form and nothing more decode to it. -/
theorem decodeTx_whole {c : Config} {wire : List Byte} {i : Instr} (h : decodeTxHead c wire = .ok (i, [])) : decodeTx c wire = .ok i := by
  simp [decodeTx, h]

/-- Settles O3, code by code. -/
theorem operationCodesSelectTheirRows : Obligations.OperationCodesSelectTheirRows := fun d =>
  ⟨decodeCmd_rsvd0 d, decodeCmd_feed d, decodeCmd_cfgcb d, decodeCmd_rdcnt d, decodeCmd_beginFrame d, decodeCmd_writeByte d,
    decodeCmd_endFrame d, decodeCmd_rsvd7 d⟩

/-- Settles O2: the words are closed. -/
theorem tabledWordsDecodeToTheirRows : Obligations.TabledWordsDecodeToTheirRows := by
  unfold Obligations.TabledWordsDecodeToTheirRows
  decide

/-- Settles O1, format by format: operation words by their code, receive patterns by R88's priorities, wire bytes by their head. -/
theorem decodeOfEncodeIsTheInstruction : Obligations.DecodeOfEncodeIsTheInstruction := by
  intro c hv i hi
  cases i with
  | rsvd0 => exact congrArg _ (decodeCmd_rsvd0 0)
  | feed b => exact congrArg _ (decodeCmd_feed b)
  | cfgcb en => cases en <;> exact congrArg _ (decodeCmd_cfgcb _)
  | rdcnt => exact congrArg _ (decodeCmd_rdcnt 0)
  | beginFrame t => exact congrArg _ (decodeCmd_beginFrame t)
  | writeByte b => exact congrArg _ (decodeCmd_writeByte b)
  | endFrame => exact congrArg _ (decodeCmd_endFrame 0)
  | rsvd7 => exact congrArg _ (decodeCmd_rsvd7 0)
  | rxEsc e => exact congrArg _ (decodeRx_escMark c e)
  | rxUnesc b => exact congrArg _ (decodeRx_pending (by simpa [Instr.wf] using hi))
  | rxFlag => exact congrArg _ (decodeRx_flag hv)
  | rxData b => exact congrArg _ (decodeRx_ordinary (by simpa [Instr.wf] using hi))
  | txLit b => exact decodeTx_whole (decodeTxHead_lit (by simpa [Instr.wf] using hi) [])
  | txEscseq b => exact decodeTx_whole (decodeTxHead_escseq hv (by simpa [Instr.wf] using hi) [])
  | txFlag => exact decodeTx_whole (decodeTxHead_flag c [])

/-- Settles O5: a reserved byte reads back through its escape, an ordinary one as itself. -/
theorem transmitFormsReadBack : Obligations.TransmitFormsReadBack := by
  intro c hv b rest
  refine ⟨?_, ?_, decodeTxHead_flag c rest⟩
  · cases hb : c.reserved b with
    | true => simpa [hb, txFormOf_reserved hb] using decodeTxHead_escseq hv hb rest
    | false => simpa [hb, txFormOf_ordinary hb] using decodeTxHead_lit hb rest
  · cases hb : c.reserved b with
    | true => simpa [txFormOf_reserved hb, Instr.wf] using hb
    | false => simpa [txFormOf_ordinary hb, Instr.wf] using hb

end Sys2Proof

/-! ### One step -/

namespace Sys2Proof.Machine

theorem step_cmd {s : State} {w : OpWord} {rest : List Input} (hv : s.cfg.Valid) (hp : s.pending = .cmd w :: rest) :
    step s = exec (decodeCmd w) (s.setPending rest) :=
  step_decoded hv hp rfl

theorem step_rxByte {s : State} {b : Byte} {rest : List Input} (hv : s.cfg.Valid) (hp : s.pending = .rxByte b :: rest) :
    step s = exec (decodeRx s.cfg (rxPattern s.esc b)) (s.setPending rest) :=
  step_decoded hv hp rfl

/-- A `FEED` runs the receive form that the pattern `{esc, c}` decodes to (R140). -/
theorem exec_decodeRx (s : State) (b : Byte) : exec (decodeRx s.cfg (rxPattern s.esc b)) s = exec (.feed b) s := by
  have hFeed : exec (.feed b) s = execFeed b s := rfl
  simp only [hFeed, decodeRx, execFeed, rxPattern_escBit, rxPattern_byte]
  cases rxForm s.cfg s.esc b <;> rfl

theorem step_issue_cmd {s : State} (hv : s.cfg.Valid) (w : OpWord) : step (s.issue (.cmd w)) = exec (decodeCmd w) s :=
  step_cmd (s := s.issue (.cmd w)) hv rfl

/-- A pattern that carries the bit `esc` the state holds is the received byte. -/
theorem step_issue_rxb {s : State} (hv : s.cfg.Valid) (b : Byte) :
    step (s.issue (.rxb (rxPattern s.esc b))) = exec (decodeRx s.cfg (rxPattern s.esc b)) s := by
  have hIssue : s.issue (.rxb (rxPattern s.esc b)) = s.setPending (.rxByte b :: s.pending) := by
    simp [State.issue, State.setEsc_self]
  rw [hIssue]
  exact step_rxByte (s := s.setPending _) hv rfl

theorem emittingWord_lit {c : Config} {wire : List Byte} {b : Byte} (h : decodeTx c wire = .ok (.txLit b)) :
    emittingWord c wire = some (opWord 0b101 b) := by
  simp [emittingWord, h]

theorem emittingWord_escseq {c : Config} {wire : List Byte} {b : Byte} (h : decodeTx c wire = .ok (.txEscseq b)) :
    emittingWord c wire = some (opWord 0b101 b) := by
  simp [emittingWord, h]

theorem emittingWord_flag {c : Config} {wire : List Byte} (h : decodeTx c wire = .ok .txFlag) :
    emittingWord c wire = some (opWord 0b110 0) := by
  simp [emittingWord, h]

/-- Issuing wire bytes is issuing the operation word that emits them. -/
theorem step_issue_txb {s : State} (hv : s.cfg.Valid) {wire : List Byte} {w : OpWord} (h : emittingWord s.cfg wire = some w) :
    step (s.issue (.txb wire)) = exec (decodeCmd w) s := by
  have hIssue : s.issue (.txb wire) = s.issue (.cmd w) := by simp [State.issue, h]
  rw [hIssue, step_issue_cmd hv]

/-- `PUT` is the transmit form of its byte (R121). -/
theorem exec_writeByte_ordinary {s : State} {b : Byte} (hb : s.cfg.reserved b = false) : exec (.writeByte b) s = exec (.txLit b) s := by
  simp [exec, execWriteByte, execTxLit, State.put, hb]

theorem exec_writeByte_reserved {s : State} {b : Byte} (hb : s.cfg.reserved b = true) :
    exec (.writeByte b) s = exec (.txEscseq b) s := by
  simp [exec, execWriteByte, execTxEscseq, State.put, hb]

theorem step_invalid {s : State} (hv : ¬ s.cfg.Valid) : step s = .refused .badConfig := if_neg hv

end Sys2Proof.Machine

namespace Sys2Proof

open Sys2Proof.Machine Sys2Proof.Claims

/-- Settles O6: issuing a well-formed instruction's word leads the step to it, an operation word or a received byte by decoding what
was encoded, a transmit form by the `WRITE` whose `PUT` is that form. -/
theorem stepRunsTheDecodedInstruction : Obligations.StepRunsTheDecodedInstruction := by
  intro s rest hv
  refine ⟨fun w hp => step_cmd hv hp, fun b hp => step_rxByte hv hp, ?_, ?_⟩
  · intro i hi hNotFlag hEsc hUnesc hFlag hData
    have hDecode := decodeOfEncodeIsTheInstruction s.cfg hv i hi
    have issued_cmd : ∀ w, encode s.cfg i = .cmd w → step (s.issue (encode s.cfg i)) = exec i s := by
      intro w hw
      rw [hw] at hDecode ⊢
      rw [step_issue_cmd hv, Except.ok.inj hDecode]
    have issued_rxb : ∀ b, encode s.cfg i = .rxb (rxPattern s.esc b) → step (s.issue (encode s.cfg i)) = exec i s := by
      intro b hb
      rw [hb] at hDecode ⊢
      rw [step_issue_rxb hv, Except.ok.inj hDecode]
    cases i with
    | rxEsc e => exact issued_rxb s.cfg.escMark (by rw [encode, hEsc e rfl])
    | rxUnesc b => exact issued_rxb b (by rw [encode, hUnesc b rfl])
    | rxFlag => exact issued_rxb s.cfg.flag (by rw [encode, hFlag rfl])
    | rxData b => exact issued_rxb b (by rw [encode, hData b rfl])
    | txLit b =>
      rw [encode, step_issue_txb hv (emittingWord_lit hDecode), decodeCmd_writeByte]
      exact exec_writeByte_ordinary (by simpa [Instr.wf] using hi)
    | txEscseq b =>
      rw [encode, step_issue_txb hv (emittingWord_escseq hDecode), decodeCmd_writeByte]
      exact exec_writeByte_reserved (by simpa [Instr.wf] using hi)
    | txFlag => exact absurd rfl hNotFlag
    | _ => exact issued_cmd _ rfl
  · rw [encode, step_issue_txb hv (emittingWord_flag (decodeTx_whole (decodeTxHead_flag s.cfg []))), decodeCmd_endFrame]

/-- Settles O7: `FEED` tests the conditions of R88 in order, and both ways to issue it run the same form. -/
theorem feedIsClassifiedInOrder : Obligations.FeedIsClassifiedInOrder := by
  intro s b rest hv
  refine ⟨?_, fun hp => ?_, fun hp => ?_⟩
  · rcases execFeed_cases b s with ⟨hEsc, h⟩ | ⟨hEsc, he, h⟩ | ⟨hEsc, he, hFlag, h⟩ | ⟨he, hr, h⟩
    · rw [if_pos hEsc]
      exact h
    · rw [if_neg hEsc, if_pos he]
      exact h
    · rw [if_neg hEsc, if_neg (by simp [he]), if_pos hFlag]
      exact h
    · obtain ⟨hFlag, hEsc⟩ := (Config.not_reserved_iff _ _).mp hr
      rw [if_neg hEsc, if_neg (by simp [he]), if_neg hFlag]
      exact h
  · rw [step_rxByte hv hp]
    exact exec_decodeRx (s.setPending rest) b
  · rw [step_cmd hv hp, decodeCmd_feed]

/-- Settles O8. -/
theorem stepWithoutInputChangesNothing : Obligations.StepWithoutInputChangesNothing :=
  fun _ hv hp => step_idle hv hp

/-- Settles O9: each broken constraint makes the configuration invalid, which the step tests first. -/
theorem brokenConfigurationsAreRefused : Obligations.BrokenConfigurationsAreRefused := by
  intro s
  refine ⟨fun h => ?_, fun h => ?_, fun h => ?_, fun h => ?_, fun h => ?_, fun h => ?_⟩ <;>
    refine step_invalid fun ⟨hMarkers, hMask, hSwap, hInit, hCap, hWidth⟩ => ?_
  · exact hMarkers h
  · exact hMask h
  · exact hSwap h
  · exact hInit h
  · exact absurd hCap (Nat.not_le.mpr h)
  · exact absurd hWidth (Nat.not_le.mpr h)

/-- Settles O10. -/
theorem resetHoldsTheTabledValues : Obligations.ResetHoldsTheTabledValues := by
  refine ⟨rfl, fun c => ?_⟩
  simp

/-- Settles O11: a reset is no instruction, so the step is the reset event on the inputs that remain. -/
theorem resetMayComeAtAnyTime : Obligations.ResetMayComeAtAnyTime := by
  intro s rest hv hp
  exact ⟨_, step_reset hv hp rfl, by simp [SameMemory]⟩

end Sys2Proof

/-! ### What operations only extend, and where the buffer is written -/

namespace Sys2Proof.Machine

open Sys2Proof.Claims

/-- `t` has the parameters and the inputs of `s`, and histories that go on from those of `s` (R172, R210). -/
structure Extension (s t : State) : Prop where
  cfg : t.cfg = s.cfg
  pending : t.pending = s.pending
  txOut : s.txOut <+: t.txOut
  dispatchLog : s.dispatchLog <+: t.dispatchLog
  cntLog : s.cntLog <+: t.cntLog
  outcomeLog : s.outcomeLog <+: t.outcomeLog

theorem SideEffect.extension {s t : State} (h : SideEffect s t) : Extension s t where
  cfg := h.cfg
  pending := h.pending
  txOut := h.txOut
  dispatchLog := by rw [h.dispatchLog]
  cntLog := by
    obtain ⟨k, hk⟩ := h.cntLog
    rw [hk]
    exact List.prefix_append _ _
  outcomeLog := by rw [h.outcomeLog]

theorem push_extension {v : Byte} {s t : State} (h : push v s = .next t) : Extension s t := by
  obtain ⟨-, -, ⟨-, -, hOut⟩, ⟨hDispatch, hCnt, hOutcome⟩, hcfg, hPending, -⟩ := push_frame h
  exact ⟨hcfg, hPending, by rw [hOut], by rw [hDispatch], by rw [hCnt], by rw [hOutcome]⟩

theorem execRxFlag_extension {s t : State} (h : execRxFlag s = .next t) : Extension s t := by
  obtain ⟨v, u, -, hEffect, rfl⟩ := execRxFlag_next h
  obtain ⟨hcfg, hPending, hOut, hDispatch, hCnt, hOutcome⟩ := hEffect.extension
  refine ⟨by simpa using hcfg, by simpa using hPending, by simpa using hOut, ?_, by simpa using hCnt, ?_⟩
  · refine List.IsPrefix.trans ?_ hDispatch
    by_cases ho : s.outcome = .delivered <;> simp [ho]
  · exact List.IsPrefix.trans (by simp) hOutcome

theorem exec_extension {i : Instr} {s t : State} (h : exec i s = .next t) : Extension s t := by
  rcases exec_next h with ⟨-, hEffect⟩ | ⟨-, rfl⟩ | ⟨-, v, e, hPush⟩ | ⟨hFlag, -⟩
  · exact hEffect.extension
  · exact ⟨rfl, rfl, List.prefix_rfl, List.prefix_rfl, List.prefix_rfl, List.prefix_rfl⟩
  · obtain ⟨hcfg, hPending, hOut, hDispatch, hCnt, hOutcome⟩ := push_extension hPush
    exact ⟨hcfg, hPending, hOut, hDispatch, hCnt, hOutcome⟩
  · exact execRxFlag_extension hFlag

/-- The buffer changes only by one byte stored at `wr`, inside the content region (R32 (c), (d)). -/
theorem push_buf {v : Byte} {s t : State} (h : push v s = .next t) :
    t.buf = s.buf ∨ (s.cfg.pad ≤ s.wr ∧ s.wr < s.cfg.bufEnd ∧ ∃ b, t.buf = Memory.write s.buf s.wr b) := by
  rcases push_next h with ⟨-, rfl⟩ | ⟨hpad, hRoom, rfl⟩
  · exact .inl rfl
  · exact .inr ⟨hpad, hRoom, v, rfl⟩

theorem exec_buf {i : Instr} {s t : State} (h : exec i s = .next t) :
    t.buf = s.buf ∨ (s.cfg.pad ≤ s.wr ∧ s.wr < s.cfg.bufEnd ∧ ∃ b, t.buf = Memory.write s.buf s.wr b) := by
  rcases exec_next h with ⟨-, hEffect⟩ | ⟨-, rfl⟩ | ⟨-, v, e, hPush⟩ | ⟨hFlag, -⟩
  · exact .inl hEffect.buf
  · exact .inl rfl
  · exact push_buf (s := s.setEsc e) hPush
  · obtain ⟨v, u, -, hEffect, rfl⟩ := execRxFlag_next hFlag
    exact .inl (by simp [hEffect.buf])

theorem step_buf {s t : State} (h : step s = .next t) :
    t.buf = s.buf ∨ (s.cfg.pad ≤ s.wr ∧ s.wr < s.cfg.bufEnd ∧ ∃ b, t.buf = Memory.write s.buf s.wr b) := by
  obtain ⟨-, ⟨-, rfl⟩ | ⟨x, rest, -, rfl | ⟨i, hExec⟩⟩⟩ := step_next h
  · exact .inl rfl
  · exact .inl rfl
  · exact exec_buf (s := s.setPending rest) hExec

end Sys2Proof.Machine

namespace Sys2Proof

open Sys2Proof.Machine Sys2Proof.Claims

/-- Settles O49. -/
theorem operationsKeepParametersAndExtendHistories : Obligations.OperationsKeepParametersAndExtendHistories := by
  intro i s t h
  obtain ⟨hcfg, hPending, hOut, hDispatch, hCnt, hOutcome⟩ := exec_extension h
  exact ⟨hcfg, hPending, hOut, hDispatch, hCnt, hOutcome⟩

/-- Settles O48: the one byte a step can write lies at `wr`, and with `err` set there is no room at `wr` (R32 (b)). -/
theorem nothingWritesOutsideTheContentRegion : Obligations.NothingWritesOutsideTheContentRegion := by
  intro s t h
  rcases step_buf h with hSame | ⟨hpad, hRoom, b, hWrite⟩
  · exact ⟨fun a _ => by rw [hSame], fun _ _ a => by rw [hSame]⟩
  · have hEnd : s.cfg.bufEnd = s.cfg.pad + s.cfg.cap := rfl
    refine ⟨fun a ha => ?_, fun ⟨⟨_, _, hFull⟩, _⟩ herr => absurd (hFull herr) (Nat.ne_of_lt hRoom)⟩
    rw [hWrite]
    exact Memory.read_write_other _ _ (by omega)

end Sys2Proof

/-! ### The outcomes of a frame boundary -/

namespace Sys2Proof.Machine

open Sys2Proof.Claims

/-- One saturating increment, in R33's numbers. -/
theorem incremented_satInc (c : Config) (n : Nat) : Incremented c n (satInc c n) := ⟨satInc_below, satInc_saturated⟩

/-- The two bytes before `wr` are the received checksum, the high one last (R149, R53). -/
theorem checksumAgrees_iff (s : State) : ChecksumAgrees s ↔ s.expectedCks = s.receivedCks := by
  rw [← BitVec.toNat_inj, State.receivedCks, joinCks_toNat]
  rfl

theorem State.outcome_tooShort {s : State} (herr : s.err = false) (hn : len s = 1 ∨ len s = 2) : s.outcome = .tooShort := by
  have hLen : s.contentLen = len s := rfl
  have hPos : len s ≠ 0 := by omega
  have hShort : len s < 3 := by omega
  simp [State.outcome, herr, hLen, hPos, hShort]

/-- From three content bytes on, the checksum decides, and for a good frame the callback. -/
theorem State.outcome_checked {s : State} (herr : s.err = false) (hn : 3 ≤ len s) :
    s.outcome = if s.expectedCks ≠ s.receivedCks then .crcBad else if s.cbEn then .delivered else .noCallback := by
  have hLen : s.contentLen = len s := rfl
  have hPos : len s ≠ 0 := by omega
  have hLong : ¬ len s < 3 := by omega
  simp [State.outcome, herr, hLen, hPos, hLong]

theorem State.outcome_crcBad {s : State} (herr : s.err = false) (hn : 3 ≤ len s) (hc : ¬ ChecksumAgrees s) : s.outcome = .crcBad := by
  rw [State.outcome_checked herr hn, if_pos (mt (checksumAgrees_iff s).mpr hc)]

theorem State.outcome_good {s : State} (herr : s.err = false) (hn : 3 ≤ len s) (hc : ChecksumAgrees s) :
    s.outcome = if s.cbEn then .delivered else .noCallback := by
  rw [State.outcome_checked herr hn, if_neg (not_not.mpr ((checksumAgrees_iff s).mp hc))]

/-- With `FLAG` and `ESC` distinct, both spellings of a boundary run `RX.FLAG` (R143). -/
theorem exec_atBoundary {i : Instr} {s : State} (hne : s.cfg.flag ≠ s.cfg.escMark)
    (hi : i = .rxFlag ∨ (i = .feed s.cfg.flag ∧ s.esc = false)) : exec i s = execRxFlag s := by
  rcases hi with rfl | ⟨rfl, he⟩
  · rfl
  · have hForm : rxForm s.cfg s.esc s.cfg.flag = .flag := by simp [rxForm, hne, he]
    have hFeed : exec (.feed s.cfg.flag) s = execFeed s.cfg.flag s := rfl
    simp only [hFeed, execFeed, hForm]

/-- A boundary that answers has done the boundary reset (R152). -/
theorem execRxFlag_atPad {s t : State} (h : execRxFlag s = .next t) : t.wr = s.cfg.pad ∧ t.err = false ∧ t.esc = false := by
  obtain ⟨v, u, -, hEffect, rfl⟩ := execRxFlag_next h
  simp [hEffect.cfg]

/-- A `FLAG` leaves `esc` clear, as an escaped byte or as a boundary (R142, R152). -/
theorem feed_flag_clears_esc {s t : State} (hne : s.cfg.flag ≠ s.cfg.escMark) (h : exec (.feed s.cfg.flag) s = .next t) :
    t.esc = false := by
  cases he : s.esc with
  | true =>
    have hPush : push (unescape s.cfg s.cfg.flag) (s.setEsc false) = .next t := (execFeed_unesc hne he).symm.trans h
    obtain ⟨hEsc, -⟩ := push_frame hPush
    exact hEsc
  | false =>
    rw [exec_atBoundary hne (.inr ⟨rfl, he⟩)] at h
    obtain ⟨-, -, hEsc⟩ := execRxFlag_atPad h
    exact hEsc

theorem boundaryAnswers_of {s t : State} (hv : s.cfg.Valid) (h : execRxFlag s = .next t) : BoundaryAnswers s t :=
  ⟨h, fun he => (execFeed_flag hv he).trans h⟩

/-- A boundary appends the outcome of the state before it to the history, and nothing else does (R185). -/
theorem execRxFlag_outcomeLog {s t : State} (h : execRxFlag s = .next t) : t.outcomeLog = s.outcomeLog ++ [s.outcome] := by
  obtain ⟨v, u, -, hEffect, rfl⟩ := execRxFlag_next h
  simp [hEffect.outcomeLog]

/-! ### The consumer's turn -/

/-- A consumer with no operation to issue that returns: the turn uses up its visit, if one is listed. -/
theorem consumerTurn_silent {s : State} (h : s.visits = [] ∨ ∃ later, s.visits = ⟨[], true⟩ :: later) :
    consumerTurn s = .next (s.setVisits s.visits.tail) := by
  rcases h with h | ⟨later, h⟩
  · rw [consumerTurn_idle h, h, List.tail_nil, ← h, State.setVisits_self]
  · simp [consumerTurn, h, consumerOps]

theorem execRxFlag_silent {s : State} (ho : s.outcome = .delivered) (h : s.visits = [] ∨ ∃ later, s.visits = ⟨[], true⟩ :: later) :
    execRxFlag s = .next (s.validate.setVisits s.visits.tail).boundaryReset := by
  rw [execRxFlag_delivered ho, consumerTurn_silent (by simpa using h), andThen_next, State.validate_visits]

/-- With no visit listed a boundary is validation and the boundary reset, dispatch or not. -/
theorem execRxFlag_idle {s : State} (h : s.visits = []) : execRxFlag s = .next s.validate.boundaryReset := by
  by_cases ho : s.outcome = .delivered
  · rw [execRxFlag_delivered ho, consumerTurn_idle (by simpa using h), andThen_next]
  · exact execRxFlag_dropped ho

/-- A dutiful consumer's operations run on the validated state, and the boundary reset comes after them (R200). -/
theorem execRxFlag_dutiful {s : State} {v : Visit} {later : List Visit} (ho : s.outcome = .delivered) (hVisits : s.visits = v :: later)
    (hReturns : v.returns = true) (hOps : ∀ i ∈ v.ops, Command.allowedInDispatch i = true) :
    ∃ u, runOps (v.ops.map Command.instr) (s.validate.setVisits later) = .next u ∧ execRxFlag s = .next u.boundaryReset ∧
      SideEffect (s.validate.setVisits later) u := by
  obtain ⟨u, hRun, hTurn, hEffect⟩ := consumerTurn_dutiful (s := s.validate) (by simpa using hVisits) hReturns hOps
  exact ⟨u, hRun, by rw [execRxFlag_delivered ho, hTurn, andThen_next], hEffect⟩

/-- A `FEED` among a consumer's operations is refused, unless one before it was (R177). -/
theorem consumerOps_feed (before after : List Command) (c : Byte) (s : State) :
    consumerOps (before ++ .feed c :: after) s = .refused .feedInsideDispatch := by
  induction before generalizing s with
  | nil => rfl
  | cons i before ih =>
    rw [List.cons_append, consumerOps]
    cases hi : Command.allowedInDispatch i with
    | true =>
      obtain ⟨t, ht, -⟩ := consumerOp_completes hi s
      rw [ht]
      exact ih t
    | false => rw [consumerOp_forbidden hi, andThen_refused]

end Sys2Proof.Machine

namespace Sys2Proof

open Sys2Proof.Machine Sys2Proof.Claims

/-- Settles O18: the outcome is `TOO_LONG`, which counts in the total alone. -/
theorem tooLongFrameIsCountedOnce : Obligations.TooLongFrameIsCountedOnce := by
  intro s hv _ herr
  have ho : s.outcome = .tooLong := State.outcome_tooLong herr
  refine ⟨_, boundaryAnswers_dropped hv (by simp [ho]), boundaryDone_dropped s, ?_⟩
  simp [ho, FrameOutcome.isError, FrameOutcome.isCrcError, incremented_satInc]

/-- Settles O20: the outcome is `TOO_SHORT`, which counts in the total alone. -/
theorem tooShortFrameIsCounted : Obligations.TooShortFrameIsCounted := by
  intro s hv _ herr hn
  have ho : s.outcome = .tooShort := State.outcome_tooShort herr hn
  refine ⟨_, boundaryAnswers_dropped hv (by simp [ho]), boundaryDone_dropped s, ?_⟩
  simp [ho, FrameOutcome.isError, FrameOutcome.isCrcError, incremented_satInc]

/-- Settles O21: the outcome is `CRC_BAD`, which counts in both counters. -/
theorem checksumMismatchCountsBoth : Obligations.ChecksumMismatchCountsBoth := by
  intro s hv _ herr hn hc
  have ho : s.outcome = .crcBad := State.outcome_crcBad herr hn hc
  refine ⟨_, boundaryAnswers_dropped hv (by simp [ho]), boundaryDone_dropped s, ?_⟩
  simp [ho, FrameOutcome.isError, FrameOutcome.isCrcError, incremented_satInc]

/-- Settles O22: the outcome is `DELIVERED`, the message is the buffer's, and the silent consumer changes nothing. -/
theorem goodFrameIsDispatched : Obligations.GoodFrameIsDispatched := by
  intro s hv _ herr hn hc hcb hSilent
  have ho : s.outcome = .delivered := by rw [State.outcome_good herr hn hc, if_pos hcb]
  refine ⟨_, boundaryAnswers_of hv (execRxFlag_silent ho hSilent), by simp [BoundaryDone, SameMemory, SameEncoder], ?_⟩
  simp [ho, FrameOutcome.isError, FrameOutcome.isCrcError, State.bufferedMessage, State.contentLen, len]

/-- Settles O23: the outcome is `NO_CALLBACK`, which counts nowhere and dispatches nothing. -/
theorem goodFrameWithoutCallbackIsLost : Obligations.GoodFrameWithoutCallbackIsLost := by
  intro s hv _ herr hn hc hcb
  have ho : s.outcome = .noCallback := by rw [State.outcome_good herr hn hc, hcb, if_neg Bool.false_ne_true]
  refine ⟨_, boundaryAnswers_dropped hv (by simp [ho]), boundaryDone_dropped s, ?_⟩
  simp [ho, FrameOutcome.isError, FrameOutcome.isCrcError]

/-- Settles O24: both spellings of a boundary run `RX.FLAG`, and whatever else an operation can be leaves the history alone. -/
theorem outcomesComeFromBoundariesOnly : Obligations.OutcomesComeFromBoundariesOnly := by
  intro i s t hne h
  by_cases hi : i = .rxFlag ∨ (i = .feed s.cfg.flag ∧ s.esc = false)
  · rw [exec_atBoundary hne hi] at h
    exact .inr ⟨execRxFlag_outcomeLog h, hi⟩
  · refine .inl ⟨?_, not_or.mp hi⟩
    rcases exec_next h with ⟨-, hEffect⟩ | ⟨-, rfl⟩ | ⟨-, v, e, hPush⟩ | ⟨-, hFlag⟩
    · exact hEffect.outcomeLog
    · rfl
    · obtain ⟨-, -, -, ⟨-, -, hLog⟩, -⟩ := push_frame hPush
      exact hLog
    · exact absurd hFlag hi

/-- Settles O25: the operations run between validation and the boundary reset, and are side effects. -/
theorem consumerOperationsRunBeforeTheReset : Obligations.ConsumerOperationsRunBeforeTheReset := by
  intro s v later hv _ ho hVisits hReturns hOps
  obtain ⟨u, hRun, hFlag, hEffect⟩ := execRxFlag_dutiful ho hVisits hReturns hOps
  refine ⟨u, u.boundaryReset, hRun, boundaryAnswers_of hv hFlag, ?_⟩
  simp [hEffect.cfg, hEffect.buf, hEffect.dispatchLog, hEffect.outcomeLog, hEffect.crcErrCnt, hEffect.totErrCnt, hEffect.pending,
    hEffect.visits, ho, SameMemory, SameEncoder, FrameOutcome.isError, FrameOutcome.isCrcError]

/-- Settles O26: O25's two operations, carried out. -/
theorem configureAndReadInsideADispatch : Obligations.ConfigureAndReadInsideADispatch := by
  intro s en later hv _ ho hVisits
  obtain ⟨u, hRun, hFlag, -⟩ := execRxFlag_dutiful ho hVisits rfl (by simp [Command.allowedInDispatch, Command.instr, Instr.receives])
  have hu : ((s.validate.setVisits later).setCbEn en).returnCounters = u := Host.Outcome.next.inj hRun
  refine ⟨u.boundaryReset, boundaryAnswers_of hv hFlag, ?_⟩
  simp [← hu, ho, SameMemory, SameEncoder, FrameOutcome.isError, FrameOutcome.isCrcError]

/-- Settles O27: the refusal inside the visit is the boundary's. -/
theorem feedInsideADispatchIsRefused : Obligations.FeedInsideADispatchIsRefused := by
  intro s before after c r later ho hVisits
  refine (execRxFlag_delivered ho).trans ?_
  simp [consumerTurn, hVisits, consumerOps_feed]

/-- Settles O28: the operations complete, and then nothing returns. -/
theorem consumerThatNeverReturnsIsStuck : Obligations.ConsumerThatNeverReturnsIsStuck := by
  intro s ops later ho hVisits hOps
  obtain ⟨u, -, hu, -⟩ := consumerOps_allowed hOps (s.validate.setVisits later)
  refine (execRxFlag_delivered ho).trans ?_
  simp [consumerTurn, hVisits, hu]

/-- Settles O29: with `esc = 1` the first `FLAG` is un-escaped and clears `esc`, so the other one is a boundary. -/
theorem twoDelimitersResynchronise : Obligations.TwoDelimitersResynchronise := by
  intro s hv _ hDuties
  have single : ∀ u : State, u.cfg = s.cfg → u.esc = false → u.ConsumerBehaves →
      ∃ t, exec (.feed s.cfg.flag) u = .next t ∧ t.wr = s.cfg.pad ∧ t.err = false ∧ t.esc = false := by
    intro u hcfg he hu
    obtain ⟨t, ht⟩ := execRxFlag_completes hu
    refine ⟨t, ?_, ?_⟩
    · rw [← hcfg]
      exact (exec_atBoundary (hcfg ▸ hv.1) (.inr ⟨rfl, he⟩)).trans ht
    · rw [← hcfg]
      exact execRxFlag_atPad ht
  refine ⟨?_, fun he => single s rfl he hDuties⟩
  obtain ⟨u, hFirst⟩ := exec_completes (.feed s.cfg.flag) hDuties
  obtain ⟨t, hSecond, hReset⟩ := single u (exec_extension hFirst).cfg (feed_flag_clears_esc hv.1 hFirst) (exec_keeps_duties hFirst hDuties)
  exact ⟨t, by simp [feeds, runOps, hFirst, hSecond], hReset⟩

end Sys2Proof

/-! ### Streams of received bytes -/

namespace Sys2Proof.Machine

open Sys2Proof.Claims

theorem runOps_cons (i : Instr) (ops : List Instr) (s : State) : runOps (i :: ops) s = andThen (exec i s) (runOps ops) := rfl

theorem runOps_singleton (i : Instr) (s : State) : runOps [i] s = exec i s := by
  rw [runOps_cons]
  cases exec i s <;> rfl

theorem feeds_cons (b : Byte) (bs : List Byte) : feeds (b :: bs) = .feed b :: feeds bs := rfl

theorem exec_feed_escMark (s : State) : exec (.feed s.cfg.escMark) s = .next (s.setEsc true) := execFeed_esc s

/-- In state ESCAPED one more `ESC` changes nothing (R141). -/
theorem runOps_feed_escMarks (s : State) (n : Nat) :
    runOps (feeds (List.replicate n s.cfg.escMark)) (s.setEsc true) = .next (s.setEsc true) := by
  induction n with
  | zero => rfl
  | succ n ih =>
    rw [List.replicate_succ, feeds_cons, runOps_cons]
    exact (congrArg (andThen · _) (exec_feed_escMark (s.setEsc true))).trans ih

/-- Escaped, any byte but `ESC` is one buffer write attempt of the un-escaped byte (R142). -/
theorem runOps_feed_escape {s : State} {m : Byte} (he : s.esc = false) (hm : m ≠ s.cfg.escMark) :
    runOps (feeds [s.cfg.escMark, m]) s = push (m ^^^ s.cfg.mask) s := by
  have hBack : (s.setEsc true).setEsc false = s := by
    conv_rhs => rw [← State.setEsc_self s, he]
    rfl
  have hUnesc : exec (.feed m) (s.setEsc true) = push (m ^^^ s.cfg.mask) ((s.setEsc true).setEsc false) :=
    execFeed_unesc hm rfl
  rw [feeds_cons, runOps_cons, exec_feed_escMark, andThen_next, feeds_cons, feeds, List.map_nil, runOps_singleton, hUnesc, hBack]

/-- From a frame boundary the wire bytes of content bytes fill the buffer from `PAD` (R160). -/
theorem runOps_feed_fromBoundary {s : State} (hv : s.cfg.Valid) (h : AtBoundary s) (bs : List Byte) :
    ∃ t, runOps (feeds (bs.flatMap (escaped s.cfg))) s = .next t ∧ Filled s bs t := by
  obtain ⟨he, herr, hwr, hwf, -⟩ := h
  refine runOps_feed_content hv he ⟨hwr.ge, ?_, by simp [herr]⟩ hwf bs
  simp [hwr, Config.bufEnd]

/-- The content is offered to the buffer and the closing `FLAG` is the boundary (R80, R143). -/
theorem runOps_feed_wireFrame {s t u : State} {ty : Byte} {p : List Byte} (hv : s.cfg.Valid) (he : s.esc = false)
    (hContent : runOps (feeds ((frameContent s.cfg ty p).flatMap (escaped s.cfg))) s = .next u)
    (f : Filled s (frameContent s.cfg ty p) u) (hFlag : execRxFlag u = .next t) :
    runOps (feeds (wireFrame s.cfg ty p)) s = .next t := by
  have hcfg : u.cfg = s.cfg := by rw [f.rest]
  have hEsc : u.esc = false := by rw [f.rest]; exact he
  rw [wireFrame, feeds_append, runOps_append, hContent, andThen_next, feeds, List.map_singleton, runOps_singleton, ← hcfg,
    exec_atBoundary (hcfg ▸ hv.1) (.inr ⟨rfl, hEsc⟩), hFlag]

theorem frameContent_length (c : Config) (ty : Byte) (p : List Byte) : (frameContent c ty p).length = p.length + 3 := by
  simp [frameContent]

/-- What filling the buffer leaves as it was. -/
theorem Filled.frame_rule {s t : State} {bs : List Byte} (f : Filled s bs t) :
    t.esc = s.esc ∧ SameStatus s t ∧ SameEncoder s t ∧ SameLogs s t ∧ SameSurround s t := by
  rw [f.rest]
  simp [SameStatus, SameEncoder, SameLogs, SameSurround]

end Sys2Proof.Machine

namespace Sys2Proof

open Sys2Proof.Machine Sys2Proof.Claims

/-- Settles O16: the first `ESC` sets `esc`, and the others find it set. -/
theorem runOfEscapesActsAsOne : Obligations.RunOfEscapesActsAsOne := by
  intro s n
  rw [List.replicate_succ, feeds_cons, runOps_cons, exec_feed_escMark, andThen_next, runOps_feed_escMarks]

/-- Settles O17: masking twice gives the byte back, so both spellings are one buffer write attempt of it. -/
theorem needlessEscapeHasTheSameEffect : Obligations.NeedlessEscapeHasTheSameEffect := by
  intro s b _ he hEsc hFlag hMasked
  rw [runOps_feed_escape he hMasked, xor_mask_twice]
  exact (execFeed_data ((Config.not_reserved_iff _ _).mpr ⟨hFlag, hEsc⟩) he).symm

/-- Settles O30: the buffer is filled from `PAD` and overruns at `PAD + CAP`. -/
theorem capacityCountsContentBytes : Obligations.CapacityCountsContentBytes := by
  intro s bs hv hAt
  obtain ⟨t, ht, f⟩ := runOps_feed_fromBoundary hv hAt bs
  obtain ⟨he, herr, hwr, -⟩ := hAt
  obtain ⟨hEsc, hFrame⟩ := f.frame_rule
  have hEnd : s.cfg.bufEnd = s.cfg.pad + s.cfg.cap := rfl
  refine ⟨t, ht, ?_, ?_, hEsc.trans he, fun k hk hCap => ?_, fun a ha => f.kept a (by omega), hFrame⟩
  · rw [f.wr, hwr]
    omega
  · rw [f.err, hwr, herr]
    simp [hEnd]
  · rw [← hwr]
    exact f.stored k hk (by omega)

/-- Settles O31: more content than `CAP` latches `err`, so the closing `FLAG` is a boundary with outcome `TOO_LONG`. -/
theorem oversizeMessageEndsTooLong : Obligations.OversizeMessageEndsTooLong := by
  intro s ty p hv hAt hLong
  obtain ⟨u, hContent, f⟩ := runOps_feed_fromBoundary hv hAt (frameContent s.cfg ty p)
  obtain ⟨he, -, hwr, -⟩ := hAt
  have hEnd : s.cfg.bufEnd = s.cfg.pad + s.cfg.cap := rfl
  have herr : u.err = true := by
    rw [f.err, frameContent_length]
    simp
    omega
  have ho : u.outcome = .tooLong := State.outcome_tooLong herr
  obtain ⟨-, ⟨hCrc, hTot, -⟩, ⟨hCrcTx, hLock, hOut⟩, ⟨hDispatch, -, hOutcome⟩, hcfg, -⟩ := f.frame_rule
  refine ⟨_, runOps_feed_wireFrame hv he hContent f (execRxFlag_dropped (by simp [ho])), ?_⟩
  simp [ho, FrameOutcome.isError, FrameOutcome.isCrcError, SameEncoder, hCrc, hTot, hCrcTx, hLock, hOut, hDispatch, hOutcome, hcfg,
    incremented_satInc]

/-- Settles O32: the buffer holds exactly the frame's content, whose checksum agrees, and the consumer issues nothing. -/
theorem decoderRecoversEveryEncodedMessage : Obligations.DecoderRecoversEveryEncodedMessage := by
  intro s ty p hv hAt hcb hVisits hFits
  obtain ⟨u, hContent, f⟩ := runOps_feed_fromBoundary hv hAt (frameContent s.cfg ty p)
  obtain ⟨he, herr, hwr, -, hBound⟩ := hAt
  obtain ⟨ho, hMessage⟩ := f.frame hwr herr hFits
  rw [if_pos hcb] at ho
  obtain ⟨-, ⟨hCrc, hTot, hCb⟩, ⟨hCrcTx, hLock, hOut⟩, ⟨hDispatch, hCnt, hOutcome⟩, hcfg, hPending, hSameVisits⟩ := f.frame_rule
  refine ⟨_, runOps_feed_wireFrame hv he hContent f (execRxFlag_idle (hSameVisits.trans hVisits)), ?_⟩
  have hAtEnd : AtBoundary u.validate.boundaryReset := ⟨rfl, rfl, rfl, by
    simpa [State.BufferOk, hcfg] using (⟨f.wf, f.bound hBound⟩ : Memory.wf u.buf ∧ _)⟩
  simp [ho, hMessage, FrameOutcome.isError, FrameOutcome.isCrcError, SameStatus, SameEncoder, SameSurround, hAtEnd, hCrc, hTot,
    hCb, hCrcTx, hLock, hOut, hDispatch, hCnt, hOutcome, hcfg, hPending, hSameVisits]

end Sys2Proof

/-! ### Whole frames sent -/

namespace Sys2Proof.Machine

open Sys2Proof.Claims

/-- `SEND` from any state appends the wire format and leaves the encoder as after reset (R129, R132). -/
theorem runOps_send (ty : Byte) (p : List Byte) (s : State) :
    runOps (send ty p) s = .next { s with txOut := s.txOut ++ wireFrame s.cfg ty p, crcTx := s.cfg.crcInit, txLock := false } := by
  have hEnd : ∀ u, exec .endFrame u = execEndFrame u := fun _ => rfl
  rw [send, runOps_append, runOps_begin_writes, andThen_next, runOps_singleton, hEnd, execEndFrame_eq]
  simp [wireFrame, frameContent]

theorem frameContent_flatMap (c : Config) (ty : Byte) (p : List Byte) : (frameContent c ty p).flatMap (escaped c) =
    (ty :: p).flatMap (escaped c) ++ (escaped c (cksLow (crcBlock c (ty :: p))) ++ escaped c (cksHigh (crcBlock c (ty :: p)))) := by
  simp [frameContent]

theorem cksLow_eq_ofNat (s : Crc) : cksLow s = BitVec.ofNat 8 s.toNat := by
  apply BitVec.eq_of_toNat_eq
  rw [cksLow_toNat, BitVec.toNat_ofNat]

theorem cksHigh_eq_ofNat (s : Crc) : cksHigh s = BitVec.ofNat 8 (s.toNat / 256) := by
  have := s.isLt
  apply BitVec.eq_of_toNat_eq
  rw [cksHigh_toNat, BitVec.toNat_ofNat]
  omega

/-- Escaping leaves no `FLAG` (R9, R130). -/
theorem flag_not_mem_escaped {c : Config} (hv : c.Valid) (b : Byte) : c.flag ∉ escaped c b := by
  cases hb : c.reserved b with
  | true =>
    obtain ⟨hFlag, -⟩ := (Config.not_reserved_iff _ _).mp (Config.masked_not_reserved hv hb)
    simp [hb, hv.1, hFlag.symm]
  | false =>
    obtain ⟨hFlag, -⟩ := (Config.not_reserved_iff _ _).mp hb
    simp [hb, hFlag.symm]

theorem flag_not_mem_escapedAll {c : Config} (hv : c.Valid) (bs : List Byte) : c.flag ∉ bs.flatMap (escaped c) := by
  intro h
  obtain ⟨b, -, hb⟩ := List.mem_flatMap.mp h
  exact flag_not_mem_escaped hv b hb

/-- Every `ESC` in `out` is followed by a byte that is neither `ESC` nor `FLAG` (R94). -/
def EscapesPaired (c : Config) (out : List Byte) : Prop :=
  ∀ before after, out = before ++ c.escMark :: after → ∃ x rest, after = x :: rest ∧ x ≠ c.escMark ∧ x ≠ c.flag

theorem escapesPaired_nil (c : Config) : EscapesPaired c [] := fun before after h => by simp at h

theorem EscapesPaired.cons {c : Config} {b : Byte} {out : List Byte} (hb : b ≠ c.escMark) (h : EscapesPaired c out) :
    EscapesPaired c (b :: out) := by
  intro before after hSplit
  cases before with
  | nil => exact absurd (List.cons.inj hSplit).1 hb
  | cons d before => exact h before after (List.cons.inj hSplit).2

theorem EscapesPaired.escape {c : Config} {m : Byte} {out : List Byte} (hm : c.reserved m = false) (h : EscapesPaired c out) :
    EscapesPaired c (c.escMark :: m :: out) := by
  obtain ⟨hFlag, hEsc⟩ := (Config.not_reserved_iff _ _).mp hm
  intro before after hSplit
  cases before with
  | nil => exact ⟨m, out, (List.cons.inj hSplit).2.symm, hEsc, hFlag⟩
  | cons d before => exact h.cons hEsc before after (List.cons.inj hSplit).2

theorem EscapesPaired.append_escaped {c : Config} (hv : c.Valid) (b : Byte) {out : List Byte} (h : EscapesPaired c out) :
    EscapesPaired c (escaped c b ++ out) := by
  cases hb : c.reserved b with
  | true =>
    rw [escaped_reserved hb]
    exact h.escape (Config.masked_not_reserved hv hb)
  | false =>
    rw [escaped_ordinary hb]
    exact h.cons ((Config.not_reserved_iff _ _).mp hb).2

theorem EscapesPaired.append_escapedAll {c : Config} (hv : c.Valid) (bs : List Byte) {out : List Byte} (h : EscapesPaired c out) :
    EscapesPaired c (bs.flatMap (escaped c) ++ out) := by
  induction bs with
  | nil => exact h
  | cons b bs ih =>
    rw [List.flatMap_cons, List.append_assoc]
    exact ih.append_escaped hv b

end Sys2Proof.Machine

namespace Sys2Proof

open Sys2Proof.Machine Sys2Proof.Claims

/-- Settles O33: the emitted bytes are the wire format, which the decoder recovers (O32) and whose sending left the decoder alone. -/
theorem loopBackDeliversTheMessage : Obligations.LoopBackDeliversTheMessage := by
  intro s ty p hv hAt hcb hVisits hFits
  obtain ⟨t, ht, hDispatch, -, hStatus, hAtEnd, ⟨hCrcTx, hLock, hOut⟩, -⟩ := decoderRecoversEveryEncodedMessage
    { s with txOut := s.txOut ++ wireFrame s.cfg ty p, crcTx := s.cfg.crcInit, txLock := false } ty p hv hAt hcb hVisits hFits
  refine ⟨_, t, runOps_send ty p s, ?_, hDispatch, hStatus, hAtEnd, hCrcTx, hLock, hOut⟩
  rw [List.drop_left]
  exact ht

/-- Settles O37. -/
theorem runningChecksumIsTheBlockChecksum : Obligations.RunningChecksumIsTheBlockChecksum := by
  intro s ty p
  exact ⟨_, runOps_begin_writes ty p s, by simp [SameDecoderRegs, SameMemory, SameLogs]⟩

/-- Settles O38: the checksum's bytes are its remainder and quotient by 256. -/
theorem sendEmitsTheWireFormat : Obligations.SendEmitsTheWireFormat := by
  intro s ty p
  refine ⟨_, runOps_send ty p s, ?_⟩
  simp [wireFrame, frameContent_flatMap, cksLow_eq_ofNat, cksHigh_eq_ofNat, SameDecoderRegs, SameMemory, SameLogs, SameSurround]

/-- Settles O39: the body is escaped content, byte by byte. -/
theorem wireFrameHasOneDelimiter : Obligations.WireFrameHasOneDelimiter := by
  intro s ty p hv
  refine ⟨_, wireFrame s.cfg ty p, runOps_send ty p s, rfl, ⟨_, rfl, flag_not_mem_escapedAll hv _⟩, ?_⟩
  exact ((escapesPaired_nil s.cfg).cons hv.1).append_escapedAll hv (frameContent s.cfg ty p)

end Sys2Proof

/-! ### The encoder's operations, and control and status -/

namespace Sys2Proof.Machine

open Sys2Proof.Claims

/-- The wire bytes of a content byte, with R81's condition written out. -/
theorem escaped_eq_ite (c : Config) (b : Byte) :
    escaped c b = if b = c.flag ∨ b = c.escMark then [c.escMark, b ^^^ c.mask] else [b] := by
  simp [escaped, Config.reserved]

/-- A state that differs from `s` in the encoder's registers and the output alone. -/
def State.setEncoder (crc : Crc) (lock : Bool) (out : List Byte) (s : State) : State :=
  { s with crcTx := crc, txLock := lock, txOut := out }

/-- Writing the encoder's state leaves everything else as it was. -/
theorem State.setEncoder_frame (crc : Crc) (lock : Bool) (out : List Byte) (s : State) :
    SameDecoderRegs s (s.setEncoder crc lock out) ∧ SameMemory s (s.setEncoder crc lock out) ∧ SameLogs s (s.setEncoder crc lock out) ∧
      SameSurround s (s.setEncoder crc lock out) := by
  simp [SameDecoderRegs, SameMemory, SameLogs, SameSurround, State.setEncoder]

theorem exec_beginFrame (t : Byte) (s : State) :
    exec (.beginFrame t) s = .next (s.setEncoder (crcUpdate s.cfg s.cfg.crcInit t) true (s.txOut ++ escaped s.cfg t)) :=
  execBeginFrame_eq t s

theorem exec_writeByte (b : Byte) (s : State) :
    exec (.writeByte b) s = .next (s.setEncoder (crcUpdate s.cfg s.crcTx b) s.txLock (s.txOut ++ escaped s.cfg b)) :=
  execWriteByte_eq b s

theorem exec_endFrame (s : State) :
    exec .endFrame s = .next (s.setEncoder s.cfg.crcInit false
      (s.txOut ++ (escaped s.cfg (cksLow s.crcTx) ++ (escaped s.cfg (cksHigh s.crcTx) ++ [s.cfg.flag])))) :=
  execEndFrame_eq s

theorem exec_txLit (b : Byte) (s : State) :
    exec (.txLit b) s = .next (s.setEncoder (crcUpdate s.cfg s.crcTx b) s.txLock (s.txOut ++ [b])) := rfl

theorem exec_txEscseq (b : Byte) (s : State) :
    exec (.txEscseq b) s =
      .next (s.setEncoder (crcUpdate s.cfg s.crcTx b) s.txLock (s.txOut ++ [s.cfg.escMark, b ^^^ s.cfg.mask])) := by
  simp [exec, execTxEscseq, State.emitEscseq, State.account, State.emit, State.setCrcTx, State.setEncoder]

theorem exec_txFlag (s : State) : exec .txFlag s = .next (s.setEncoder s.crcTx s.txLock (s.txOut ++ [s.cfg.flag])) := rfl

end Sys2Proof.Machine

namespace Sys2Proof

open Sys2Proof.Machine Sys2Proof.Claims

/-- Settles O34. -/
theorem beginStartsAFrame : Obligations.BeginStartsAFrame := by
  intro s ty
  exact ⟨_, exec_beginFrame ty s, rfl, rfl, by rw [← escaped_eq_ite]; rfl, State.setEncoder_frame _ _ _ s⟩

/-- Settles O35: `PUT` is the transmit form of its byte, and the masked form of a reserved byte is not reserved (R9). -/
theorem putEscapesAndAccounts : Obligations.PutEscapesAndAccounts := by
  intro s b
  refine ⟨?_, ?_, ?_, ?_, fun hv hb => ?_⟩
  · exact ⟨_, exec_writeByte b s, rfl, by rw [← escaped_eq_ite]; rfl, rfl, State.setEncoder_frame _ _ _ s⟩
  · exact ⟨_, exec_txLit b s, rfl, rfl, rfl, State.setEncoder_frame _ _ _ s⟩
  · exact ⟨_, exec_txEscseq b s, rfl, rfl, rfl, State.setEncoder_frame _ _ _ s⟩
  · cases hb : s.cfg.reserved b with
    | true => rw [txFormOf_reserved hb, exec_writeByte_reserved hb]
    | false => rw [txFormOf_ordinary hb, exec_writeByte_ordinary hb]
  · exact (Config.not_reserved_iff _ _).mp (Config.masked_not_reserved hv ((Config.reserved_iff _ _).mpr hb))

/-- Settles O36: the two bytes are the halves of the running checksum. -/
theorem endSendsChecksumAndDelimiter : Obligations.EndSendsChecksumAndDelimiter := by
  intro s
  refine ⟨⟨_, cksLow s.crcTx, cksHigh s.crcTx, exec_endFrame s, ?_, rfl, rfl, rfl, State.setEncoder_frame _ _ _ s⟩,
    _, exec_txFlag s, rfl, rfl, rfl, State.setEncoder_frame _ _ _ s⟩
  rw [← joinCks_toNat, joinCks_halves]

/-- Settles O40. -/
theorem configureWritesTheCallbackBitOnly : Obligations.ConfigureWritesTheCallbackBitOnly := by
  intro s en
  exact ⟨s.setCbEn en, rfl, by simp [SameMemory, SameEncoder, SameLogs, SameSurround]⟩

/-- Settles O41. -/
theorem readCountersReturnsThePair : Obligations.ReadCountersReturnsThePair := by
  intro s
  exact ⟨s.returnCounters, rfl, by simp [SameDecoderRegs, SameMemory, SameEncoder, SameSurround]⟩

/-- Settles O42. -/
theorem reservedCodesChangeNothing : Obligations.ReservedCodesChangeNothing := fun _ => ⟨rfl, rfl⟩

/-- Settles O43: the table that lists every argument with the function's value. -/
theorem everyCrcUpdateIsRepresented : Obligations.EveryCrcUpdateIsRepresented := by
  intro f
  obtain ⟨args, -, hListed⟩ := Finite.exists_univ_list (Crc × Byte)
  refine ⟨.table (args.map fun a => (a, f a.1 a.2)), fun c hc s b => ?_⟩
  rw [crcUpdate, hc]
  simp only [crcTable, List.lookup_graph (fun a : Crc × Byte => f a.1 a.2) (hListed (s, b)), Option.getD_some]

end Sys2Proof

/-! ### The two agents -/

namespace Sys2Proof.Machine

open Sys2Proof.Claims

/-- An encoder operation writes the encoder's state, by the parameters and the encoder's state alone (R20). -/
theorem exec_onEncoder {j : Instr} (hj : Instr.onEncoder j = true) (s : State) : ∃ crc lock out, ∀ u : State,
    u.cfg = s.cfg → SameEncoder s u → exec j u = .next (u.setEncoder crc lock out) := by
  cases j with
  | beginFrame t => exact ⟨_, _, _, fun u hcfg ⟨_, _, hOut⟩ => by rw [exec_beginFrame, hcfg, hOut]⟩
  | writeByte b => exact ⟨_, _, _, fun u hcfg ⟨hCrc, hLock, hOut⟩ => by rw [exec_writeByte, hcfg, hCrc, hLock, hOut]⟩
  | endFrame => exact ⟨_, _, _, fun u hcfg ⟨hCrc, _, hOut⟩ => by rw [exec_endFrame, hcfg, hCrc, hOut]⟩
  | txLit b => exact ⟨_, _, _, fun u hcfg ⟨hCrc, hLock, hOut⟩ => by rw [exec_txLit, hcfg, hCrc, hLock, hOut]⟩
  | txEscseq b => exact ⟨_, _, _, fun u hcfg ⟨hCrc, hLock, hOut⟩ => by rw [exec_txEscseq, hcfg, hCrc, hLock, hOut]⟩
  | txFlag => exact ⟨_, _, _, fun u hcfg ⟨hCrc, hLock, hOut⟩ => by rw [exec_txFlag, hcfg, hCrc, hLock, hOut]⟩
  | _ => exact absurd hj (by simp [Instr.onEncoder])

/-- With no visit listed, a decoder operation leaves the encoder's state alone (R20). -/
theorem exec_onDecoder {i : Instr} {s t : State} (hi : Instr.onDecoder i = true) (hVisits : s.visits = []) (h : exec i s = .next t) :
    SameEncoder s t := by
  rcases exec_next h with ⟨hSide, -⟩ | ⟨-, rfl⟩ | ⟨-, v, e, hPush⟩ | ⟨hFlag, -⟩
  · cases i with
    | cfgcb en => exact Host.Outcome.next.inj h ▸ ⟨rfl, rfl, rfl⟩
    | rdcnt => exact Host.Outcome.next.inj h ▸ ⟨rfl, rfl, rfl⟩
    | feed _ | rxEsc _ | rxUnesc _ | rxFlag | rxData _ => exact absurd hSide (by simp [Instr.receives])
    | _ => exact absurd hi (by simp [Instr.onDecoder])
  · exact ⟨rfl, rfl, rfl⟩
  · obtain ⟨-, -, hEncoder, -⟩ := push_frame hPush
    exact hEncoder
  · rw [execRxFlag_idle hVisits] at hFlag
    obtain rfl := Host.Outcome.next.inj hFlag
    simp [SameEncoder]

theorem push_setEncoder (v : Byte) (s : State) (crc : Crc) (lock : Bool) (out : List Byte) :
    push v (s.setEncoder crc lock out) = andThen (push v s) fun t => .next (t.setEncoder crc lock out) := by
  by_cases hRoom : s.cfg.pad ≤ s.wr ∧ s.wr < s.cfg.bufEnd
  · rw [push_room v hRoom.1 hRoom.2, push_room (s := s.setEncoder crc lock out) v hRoom.1 hRoom.2]
    rfl
  · rw [push_noRoom v hRoom, push_noRoom (s := s.setEncoder crc lock out) v hRoom]
    rfl

theorem State.validate_setEncoder (s : State) (crc : Crc) (lock : Bool) (out : List Byte) :
    (s.setEncoder crc lock out).validate = s.validate.setEncoder crc lock out := by
  have ho : (s.setEncoder crc lock out).outcome = s.outcome := rfl
  rw [State.validate, State.validate, ho]
  cases s.outcome <;> rfl

theorem execRxFlag_setEncoder {s : State} (hVisits : s.visits = []) (crc : Crc) (lock : Bool) (out : List Byte) :
    execRxFlag (s.setEncoder crc lock out) = andThen (execRxFlag s) fun t => .next (t.setEncoder crc lock out) := by
  rw [execRxFlag_idle hVisits, execRxFlag_idle (s := s.setEncoder crc lock out) hVisits, State.validate_setEncoder]
  rfl

/-- A decoder operation does the same whatever the encoder's state (R20). -/
theorem exec_setEncoder {i : Instr} {s : State} (hi : Instr.onDecoder i = true) (hVisits : s.visits = []) (crc : Crc) (lock : Bool)
    (out : List Byte) :
    exec i (s.setEncoder crc lock out) = andThen (exec i s) fun t => .next (t.setEncoder crc lock out) := by
  cases i with
  | cfgcb en => rfl
  | rdcnt => rfl
  | rxEsc e => rfl
  | rxUnesc c => exact push_setEncoder _ (s.setEsc false) crc lock out
  | rxData c => exact push_setEncoder c s crc lock out
  | rxFlag => exact execRxFlag_setEncoder hVisits crc lock out
  | feed c =>
    have hFeed : ∀ u, exec (.feed c) u = execFeed c u := fun _ => rfl
    have hForm : rxForm (s.setEncoder crc lock out).cfg (s.setEncoder crc lock out).esc c = rxForm s.cfg s.esc c := rfl
    simp only [hFeed, execFeed, hForm]
    cases rxForm s.cfg s.esc c with
    | esc => rfl
    | unesc => exact push_setEncoder _ (s.setEsc false) crc lock out
    | flag => exact execRxFlag_setEncoder hVisits crc lock out
    | data => exact push_setEncoder c s crc lock out
  | _ => exact absurd hi (by simp [Instr.onDecoder])

end Sys2Proof.Machine

namespace Sys2Proof

open Sys2Proof.Machine Sys2Proof.Claims

/-- Settles O51. -/
theorem agentsShareNoState : Obligations.AgentsShareNoState := by
  intro i s t h
  refine ⟨fun hi => ?_, fun hi hVisits => exec_onDecoder hi hVisits h⟩
  obtain ⟨crc, lock, out, hEncoder⟩ := exec_onEncoder hi s
  obtain rfl := Host.Outcome.next.inj ((hEncoder s rfl ⟨rfl, rfl, rfl⟩).symm.trans h)
  obtain ⟨hRegs, hMemory, hLogs, -⟩ := State.setEncoder_frame crc lock out s
  exact ⟨hRegs, hMemory, hLogs⟩

/-- Settles O52: the decoder operation neither reads nor writes what the encoder operation writes. -/
theorem decoderAndEncoderOperationsCommute : Obligations.DecoderAndEncoderOperationsCommute := by
  intro i j s hi hj hVisits
  obtain ⟨crc, lock, out, hEncoder⟩ := exec_onEncoder hj s
  rw [hEncoder s rfl ⟨rfl, rfl, rfl⟩, andThen_next, exec_setEncoder hi hVisits]
  cases h : exec i s with
  | next u => exact hEncoder u (exec_extension h).cfg (exec_onDecoder hi hVisits h)
  | fault e => rfl
  | refused r => rfl

end Sys2Proof

/-! ### Stops -/

namespace Sys2Proof.Machine

theorem consumerTurn_eq_refused {s : State} {r : Refusal} (h : consumerTurn s = .refused r) :
    r = .feedInsideDispatch ∧ ∃ v later c, s.visits = v :: later ∧ Command.feed c ∈ v.ops := by
  cases hv : s.visits with
  | nil => simp [consumerTurn_idle hv] at h
  | cons v later =>
    simp only [consumerTurn, hv] at h
    cases hOps : consumerOps v.ops (s.setVisits later) with
    | next u =>
      rw [hOps, andThen_next] at h
      split at h <;> simp at h
    | fault e => exact absurd hOps (consumerOps_not_fault _ _ e)
    | refused q =>
      rw [hOps, andThen_refused] at h
      obtain ⟨hq, c, hc⟩ := consumerOps_eq_refused hOps
      exact ⟨(Host.Outcome.refused.inj h).symm.trans hq, v, later, c, rfl, hc⟩

theorem consumerTurn_eq_fault {s : State} {e : Fault} (h : consumerTurn s = .fault e) :
    ∃ v later, s.visits = v :: later ∧ v.returns = false := by
  cases hv : s.visits with
  | nil => simp [consumerTurn_idle hv] at h
  | cons v later =>
    refine ⟨v, later, rfl, ?_⟩
    simp only [consumerTurn, hv] at h
    cases hOps : consumerOps v.ops (s.setVisits later) with
    | next u =>
      rw [hOps, andThen_next] at h
      cases hReturns : v.returns with
      | true => simp [hReturns] at h
      | false => rfl
    | fault f => exact absurd hOps (consumerOps_not_fault _ _ f)
    | refused q => simp [hOps] at h

/-- An operation stops only where the consumer's turn in a dispatch does. -/
theorem exec_stops {i : Instr} {s : State} (h : ∀ t, exec i s ≠ .next t) :
    exec i s = andThen (consumerTurn s.validate) fun t => .next t.boundaryReset := by
  rcases exec_completes_or_boundary i s with ⟨t, ht⟩ | hBoundary
  · exact absurd ht (h t)
  · by_cases ho : s.outcome = .delivered
    · rw [hBoundary, execRxFlag_delivered ho]
    · exact absurd (hBoundary.trans (execRxFlag_dropped ho)) (h _)

theorem exec_eq_refused {i : Instr} {s : State} {r : Refusal} (h : exec i s = .refused r) :
    r = .feedInsideDispatch ∧ ∃ v later c, s.visits = v :: later ∧ Command.feed c ∈ v.ops := by
  have hTurn := exec_stops (i := i) (s := s) (by simp [h])
  rw [h] at hTurn
  cases hConsumer : consumerTurn s.validate with
  | refused q =>
    rw [hConsumer, andThen_refused] at hTurn
    rw [Host.Outcome.refused.inj hTurn]
    simpa using consumerTurn_eq_refused hConsumer
  | _ => simp [hConsumer] at hTurn

theorem exec_eq_fault {i : Instr} {s : State} {e : Fault} (h : exec i s = .fault e) :
    ∃ v later, s.visits = v :: later ∧ v.returns = false := by
  have hTurn := exec_stops (i := i) (s := s) (by simp [h])
  rw [h] at hTurn
  cases hConsumer : consumerTurn s.validate with
  | fault f => simpa using consumerTurn_eq_fault hConsumer
  | _ => simp [hConsumer] at hTurn

/-- A step of a valid configuration that stops does so in the operation it runs. -/
theorem step_stops {s : State} (hv : s.cfg.Valid) (h : ∀ t, step s ≠ .next t) :
    ∃ i rest, step s = exec i (s.setPending rest) := by
  cases hp : s.pending with
  | nil => exact absurd (step_idle hv hp) (h s)
  | cons x rest =>
    cases hf : s.fetchOf x with
    | none => exact absurd (step_reset hv hp hf) (h _)
    | some i => exact ⟨i, rest, step_decoded hv hp hf⟩

end Sys2Proof.Machine

namespace Sys2Proof

open Sys2Proof.Machine

/-- Settles O55: a valid configuration stops only in the consumer's turn. -/
theorem stopsAreForbiddenUsesOnly : Obligations.StopsAreForbiddenUsesOnly := by
  intro s
  by_cases hv : s.cfg.Valid
  · refine ⟨fun r h => .inr ?_, fun e h => ?_⟩ <;> obtain ⟨i, rest, hStep⟩ := step_stops hv (by simp [h])
    · exact exec_eq_refused (s := s.setPending rest) (hStep.symm.trans h)
    · exact exec_eq_fault (s := s.setPending rest) (hStep.symm.trans h)
  · rw [step_invalid hv]
    exact ⟨fun r h => .inl ⟨(Host.Outcome.refused.inj h).symm, hv⟩, fun e h => by simp at h⟩

end Sys2Proof

/-! ### What a step emits -/

namespace Sys2Proof.Machine

open Sys2Proof.Claims

/-- The bytes of one content byte, or the two checksum bytes with the raw `FLAG` after them (R82, R124). -/
def WholeUnit (c : Config) (u : List Byte) : Prop :=
  (∃ b, u = escaped c b) ∨ ∃ lo hi, u = escaped c lo ++ escaped c hi ++ [c.flag]

/-- `t` has emitted whole units on top of what `s` had. -/
def EmitsUnits (s t : State) : Prop :=
  ∃ units : List (List Byte), t.txOut = s.txOut ++ units.flatten ∧ ∀ u ∈ units, WholeUnit s.cfg u

theorem EmitsUnits.of_same {s t : State} (h : t.txOut = s.txOut) : EmitsUnits s t := ⟨[], by simp [h], by simp⟩

theorem EmitsUnits.of_unit {s t : State} {u : List Byte} (hu : WholeUnit s.cfg u) (h : t.txOut = s.txOut ++ u) : EmitsUnits s t :=
  ⟨[u], by simp [h], by simp [hu]⟩

theorem EmitsUnits.trans {s t u : State} (hcfg : t.cfg = s.cfg) (h : EmitsUnits s t) (g : EmitsUnits t u) : EmitsUnits s u := by
  obtain ⟨xs, hOut, hUnits⟩ := h
  obtain ⟨ys, gOut, gUnits⟩ := g
  rw [hcfg] at gUnits
  refine ⟨xs ++ ys, by simp [gOut, hOut], fun v hv => ?_⟩
  rcases List.mem_append.mp hv with hx | hy
  · exact hUnits v hx
  · exact gUnits v hy

/-- An issued operation that is no `FEED` emits whole units: of the transmit forms it emits only whole `PUT`s and an `END` (R104). -/
theorem command_emits {i : Command} {s t : State} (hi : Command.allowedInDispatch i = true) (h : exec i.instr s = .next t) :
    EmitsUnits s t := by
  cases i with
  | feed c => simp [Command.allowedInDispatch, Command.instr, Instr.receives] at hi
  | beginFrame b =>
    obtain rfl := Host.Outcome.next.inj ((exec_beginFrame b s).symm.trans h)
    exact .of_unit (.inl ⟨b, rfl⟩) rfl
  | writeByte b =>
    obtain rfl := Host.Outcome.next.inj ((exec_writeByte b s).symm.trans h)
    exact .of_unit (.inl ⟨b, rfl⟩) rfl
  | endFrame =>
    obtain rfl := Host.Outcome.next.inj ((exec_endFrame s).symm.trans h)
    refine .of_unit (.inr ⟨cksLow s.crcTx, cksHigh s.crcTx, rfl⟩) ?_
    rw [List.append_assoc (escaped s.cfg _)]
    rfl
  | cfgcb _ | rdcnt | rsvd0 | rsvd7 =>
    obtain rfl := Host.Outcome.next.inj h
    exact .of_same rfl

theorem consumerOps_emits {ops : List Command} {s t : State} (h : consumerOps ops s = .next t) : EmitsUnits s t := by
  induction ops generalizing s with
  | nil =>
    obtain rfl := Host.Outcome.next.inj h
    exact .of_same rfl
  | cons i ops ih =>
    obtain ⟨u, hFirst, hRest⟩ := andThen_eq_next.mp h
    cases hi : Command.allowedInDispatch i with
    | true => exact .trans (consumerOp_next hFirst).cfg (command_emits hi (consumerOp_allowed hi s ▸ hFirst)) (ih hRest)
    | false => simp [consumerOp_forbidden hi s] at hFirst

theorem consumerTurn_emits {s t : State} (h : consumerTurn s = .next t) : EmitsUnits s t := by
  cases hv : s.visits with
  | nil =>
    obtain rfl := Host.Outcome.next.inj ((consumerTurn_idle hv).symm.trans h)
    exact .of_same rfl
  | cons v later =>
    simp only [consumerTurn, hv] at h
    obtain ⟨u, hOps, hReturn⟩ := andThen_eq_next.mp h
    split_ifs at hReturn
    obtain rfl := Host.Outcome.next.inj hReturn
    exact consumerOps_emits (s := s.setVisits later) hOps

theorem execRxFlag_emits {s t : State} (h : execRxFlag s = .next t) : EmitsUnits s t := by
  by_cases ho : s.outcome = .delivered
  · rw [execRxFlag_delivered ho] at h
    obtain ⟨u, hTurn, hReset⟩ := andThen_eq_next.mp h
    obtain rfl := Host.Outcome.next.inj hReset
    have hEmits : EmitsUnits s u := .trans (State.validate_cfg s) (.of_same (State.validate_txOut s)) (consumerTurn_emits hTurn)
    exact hEmits
  · obtain rfl := Host.Outcome.next.inj ((execRxFlag_dropped ho).symm.trans h)
    exact .of_same (State.validate_txOut s)

/-- What consumes a received byte emits only what a consumer does. -/
theorem receives_emits {i : Instr} {s t : State} (hi : Instr.receives i = true) (h : exec i s = .next t) : EmitsUnits s t := by
  rcases exec_next h with ⟨hSide, -⟩ | ⟨-, rfl⟩ | ⟨-, v, e, hPush⟩ | ⟨hFlag, -⟩
  · simp [hi] at hSide
  · exact .of_same rfl
  · obtain ⟨-, -, ⟨-, -, hOut⟩, -⟩ := push_frame hPush
    exact .of_same hOut
  · exact execRxFlag_emits hFlag

theorem decodeCmd_emits {w : OpWord} {s t : State} (h : exec (decodeCmd w) s = .next t) : EmitsUnits s t := by
  obtain ⟨i, hi⟩ := decodeCmd_isCommand w
  rw [hi] at h
  cases hAllowed : Command.allowedInDispatch i with
  | true => exact command_emits hAllowed h
  | false => exact receives_emits (by simpa [Command.allowedInDispatch] using hAllowed) h

/-- A step that is no reset is one operation word's operation, one received byte's form, or nothing. -/
theorem step_next_operation {s t : State} (h : step s = .next t) (hNoReset : s.pending.head? ≠ some .reset) :
    (s.pending = [] ∧ t = s) ∨
    (∃ w rest, s.pending = .cmd w :: rest ∧ exec (decodeCmd w) (s.setPending rest) = .next t) ∨
    (∃ b rest, s.pending = .rxByte b :: rest ∧ exec (decodeRx s.cfg (rxPattern s.esc b)) (s.setPending rest) = .next t) := by
  obtain ⟨hv, -⟩ := step_next h
  cases hp : s.pending with
  | nil => exact .inl ⟨rfl, Host.Outcome.next.inj (h.symm.trans (step_idle hv hp))⟩
  | cons x rest =>
    cases x with
    | cmd w => exact .inr (.inl ⟨w, rest, rfl, (step_cmd hv hp).symm.trans h⟩)
    | rxByte b => exact .inr (.inr ⟨b, rest, rfl, (step_rxByte hv hp).symm.trans h⟩)
    | reset => simp [hp] at hNoReset

/-! ### Where a raw `FLAG` comes from -/

theorem decodeRx_onDecoder (c : Config) (p : RxPattern) : Instr.onDecoder (decodeRx c p) = true := by
  unfold decodeRx
  cases rxForm c p.escBit p.byte <;> rfl

theorem decodeCmd_eq_endFrame {w : OpWord} (h : decodeCmd w = .endFrame) : w.op = 0b110 := by
  unfold decodeCmd at h
  split_ifs at h
  assumption

/-- Where nothing is appended, nothing is in what is appended. -/
theorem not_mem_of_self_eq_append {xs out : List Byte} {b : Byte} (h : xs = xs ++ out) : b ∉ out := by
  simp [List.self_eq_append_right.mp h]

/-- With no visit listed an issued operation other than `END` emits no `FLAG` (R130). -/
theorem command_emits_flag {i : Command} {s t : State} {out : List Byte} (hv : s.cfg.Valid) (hVisits : s.visits = [])
    (h : exec i.instr s = .next t) (hOut : t.txOut = s.txOut ++ out) (hFlag : s.cfg.flag ∈ out) : i = .endFrame := by
  have silent : t.txOut ≠ s.txOut := fun hSame =>
    not_mem_of_self_eq_append (hSame.symm.trans hOut) hFlag
  have not_put : ∀ b, t.txOut ≠ s.txOut ++ escaped s.cfg b := fun b hPut => by
    rw [List.append_cancel_left (hOut.symm.trans hPut)] at hFlag
    exact flag_not_mem_escaped hv b hFlag
  cases i with
  | endFrame => rfl
  | beginFrame b => exact absurd (congrArg State.txOut (Host.Outcome.next.inj (h.symm.trans (exec_beginFrame b s)))) (not_put b)
  | writeByte b => exact absurd (congrArg State.txOut (Host.Outcome.next.inj (h.symm.trans (exec_writeByte b s)))) (not_put b)
  | rsvd0 | rsvd7 => exact absurd (congrArg State.txOut (Host.Outcome.next.inj h)).symm silent
  | feed _ | cfgcb _ | rdcnt =>
    obtain ⟨-, -, hSame⟩ := exec_onDecoder rfl hVisits h
    exact absurd hSame silent

end Sys2Proof.Machine

namespace Sys2Proof

open Sys2Proof.Machine

/-- Settles O54: every operation that can be issued emits whole units, and none but `END` holds the value `FLAG`. -/
theorem emittedBytesAreWholeForms : Obligations.EmittedBytesAreWholeForms := by
  intro s t h hNoReset
  obtain ⟨hv, -⟩ := step_next h
  rcases step_next_operation h hNoReset with ⟨-, rfl⟩ | ⟨w, rest, hp, hExec⟩ | ⟨b, rest, hp, hExec⟩
  · exact ⟨EmitsUnits.of_same rfl, fun _ out hOut hFlag => absurd hFlag (not_mem_of_self_eq_append hOut)⟩
  · refine ⟨decodeCmd_emits (s := s.setPending rest) hExec, fun hVisits out hOut hFlag => ⟨w, rest, hp, ?_⟩⟩
    obtain ⟨i, hi⟩ := decodeCmd_isCommand w
    rw [hi] at hExec
    obtain rfl := command_emits_flag (s := s.setPending rest) hv hVisits hExec hOut hFlag
    exact decodeCmd_eq_endFrame hi
  · refine ⟨receives_emits (s := s.setPending rest) (decodeRx_receives _ _) hExec, fun hVisits out hOut hFlag => ?_⟩
    obtain ⟨-, -, hSame⟩ := exec_onDecoder (s := s.setPending rest) (decodeRx_onDecoder _ _) hVisits hExec
    exact absurd hFlag (not_mem_of_self_eq_append (hSame.symm.trans hOut))

end Sys2Proof

/-! ### Stale buffer bytes -/

namespace Sys2Proof.Machine

/-- The state with another buffer. -/
def State.setBuf (m : Memory) (s : State) : State :=
  { s with buf := m }

@[simp] theorem State.setBuf_buf (m : Memory) (s : State) : (s.setBuf m).buf = m := rfl
@[simp] theorem State.setBuf_cfg (m : Memory) (s : State) : (s.setBuf m).cfg = s.cfg := rfl

/-- An encoder, status or reserved operation neither reads nor writes the buffer. -/
theorem exec_setBuf {i : Instr} (hi : Instr.receives i = false) (m : Memory) (s : State) :
    exec i (s.setBuf m) = andThen (exec i s) fun t => .next (t.setBuf m) := by
  cases i with
  | rsvd0 | rsvd7 | cfgcb _ | rdcnt | txLit _ | txFlag => rfl
  | beginFrame b => rw [exec_beginFrame, exec_beginFrame]; rfl
  | writeByte b => rw [exec_writeByte, exec_writeByte]; rfl
  | endFrame => rw [exec_endFrame, exec_endFrame]; rfl
  | txEscseq b => rw [exec_txEscseq, exec_txEscseq]; rfl
  | feed _ | rxEsc _ | rxUnesc _ | rxFlag | rxData _ => exact absurd hi (by simp [Instr.receives])

/-- A delivered frame has a type byte and a checksum (R150). -/
theorem State.delivered_contentLen {s : State} (ho : s.outcome = .delivered) : 3 ≤ s.contentLen := by
  by_contra hn
  rw [State.outcome, if_pos (Nat.not_le.mp hn)] at ho
  split_ifs at ho

end Sys2Proof.Machine

namespace Sys2Proof.Claims

open Sys2Proof.Machine

theorem SameButStale.eq_setBuf {s t : State} (h : SameButStale s t) : t = s.setBuf t.buf := h.1

theorem SameButStale.cfg {s t : State} (h : SameButStale s t) : t.cfg = s.cfg := by
  rw [h.eq_setBuf]
  rfl

theorem SameButStale.wr {s t : State} (h : SameButStale s t) : t.wr = s.wr := by
  rw [h.eq_setBuf]
  rfl

/-- Where the buffer is kept, and `wr` too or set to `PAD` so that nothing is buffered, the same bytes are stale or more. -/
theorem SameButStale.setBuf_of_kept {s t u : State} (h : SameButStale s t) (hcfg : u.cfg = s.cfg) (hbuf : u.buf = s.buf)
    (hwr : u.wr = s.wr ∨ u.wr = s.cfg.pad) : SameButStale u (u.setBuf t.buf) := by
  have htCfg := h.cfg
  obtain ⟨-, hs, ht, hSame⟩ := h
  refine ⟨rfl, ?_, ?_, fun a hpad hlt => ?_⟩
  · simpa [State.BufferOk, hcfg, hbuf] using hs
  · simpa [State.BufferOk, hcfg, htCfg] using ht
  · rw [State.setBuf_buf, hbuf]
    rw [hcfg] at hpad
    exact hSame a hpad (by omega)

/-- Such a state change shows nothing of the stale bytes if it does not read them. -/
theorem SameButStale.map {s t : State} (h : SameButStale s t) (f : State → State) (hf : f (s.setBuf t.buf) = (f s).setBuf t.buf)
    (hcfg : (f s).cfg = s.cfg) (hbuf : (f s).buf = s.buf) (hwr : (f s).wr = s.wr ∨ (f s).wr = s.cfg.pad) : SameButStale (f s) (f t) := by
  have hft : f t = (f s).setBuf t.buf := (congrArg f h.eq_setBuf).trans hf
  rw [hft]
  exact h.setBuf_of_kept hcfg hbuf hwr

theorem SameButStale.read {s t : State} (h : SameButStale s t) {a : Nat} (hpad : s.cfg.pad ≤ a) (hlt : a < s.wr) :
    Memory.read t.buf a = Memory.read s.buf a := by
  obtain ⟨-, -, -, hSame⟩ := h
  exact hSame a hpad hlt

theorem SameButStale.slice {s t : State} (h : SameButStale s t) {a n : Nat} (hpad : s.cfg.pad ≤ a) (hlt : ∀ i < n, a + i < s.wr) :
    Memory.slice t.buf a n = Memory.slice s.buf a n :=
  Memory.slice_congr fun i hi => h.read (by omega) (hlt i hi)

/-- Validation reads below `wr` only (R149). -/
theorem SameButStale.checksums {s t : State} (h : SameButStale s t) (hn : 3 ≤ s.contentLen) :
    t.expectedCks = s.expectedCks ∧ t.receivedCks = s.receivedCks := by
  have hLen : s.contentLen = s.wr - s.cfg.pad := rfl
  constructor
  · rw [State.expectedCks, State.expectedCks, State.checkedContent, State.checkedContent, State.contentLen, State.contentLen, h.cfg, h.wr,
      h.slice le_rfl (by omega)]
  · rw [State.receivedCks, State.receivedCks, h.wr, h.read (by omega) (by omega), h.read (by omega) (by omega)]

theorem SameButStale.outcome {s t : State} (h : SameButStale s t) : t.outcome = s.outcome := by
  have hErr : t.err = s.err := by rw [h.eq_setBuf]; rfl
  have hLen : t.contentLen = s.contentLen := by rw [h.eq_setBuf]; rfl
  have hCb : t.cbEn = s.cbEn := by rw [h.eq_setBuf]; rfl
  by_cases hn : s.contentLen < 3
  · simp [State.outcome, hErr, hLen, hn]
  · obtain ⟨hExp, hGot⟩ := h.checksums (Nat.not_lt.mp hn)
    simp [State.outcome, hErr, hLen, hCb, hExp, hGot]

/-- A dispatch presents bytes below `wr` only (R150). -/
theorem SameButStale.bufferedMessage {s t : State} (h : SameButStale s t) (hn : 3 ≤ s.contentLen) :
    t.bufferedMessage = s.bufferedMessage := by
  have hDef : s.contentLen = s.wr - s.cfg.pad := rfl
  have hLen : t.contentLen = s.contentLen := by rw [h.eq_setBuf]; rfl
  rw [State.bufferedMessage, State.bufferedMessage, h.cfg, hLen, h.read le_rfl (by omega), h.slice (by omega) (by omega)]

theorem SameButStale.validate {s t : State} (h : SameButStale s t) : SameButStale s.validate t.validate := by
  refine h.map State.validate ?_ (by simp) (by simp) (by simp)
  rw [← h.eq_setBuf, State.validate, State.validate, h.outcome]
  cases ho : s.outcome with
  | delivered =>
    have hMessage := h.bufferedMessage (State.delivered_contentLen ho)
    simp only [State.countOutcome, State.enterDispatch, hMessage]
    rw [h.eq_setBuf]
    rfl
  | _ =>
    rw [h.eq_setBuf]
    rfl

/-- Two answers that show nothing of the stale bytes: the same stop, or next states that differ in stale bytes at most. -/
def AnswersAlike : Result → Result → Prop
  | .next s, .next t => SameButStale s t
  | .fault e, .fault f => f = e
  | .refused r, .refused q => q = r
  | _, _ => False

theorem AnswersAlike.of_next {s : State} {q : Result} (h : AnswersAlike (.next s) q) : ∃ t, q = .next t ∧ SameButStale s t := by
  cases q with
  | next t => exact ⟨t, rfl, h⟩
  | _ => exact False.elim h

theorem AnswersAlike.of_fault {e : Fault} {q : Result} (h : AnswersAlike (.fault e) q) : q = .fault e := by
  cases q with
  | fault f => exact congrArg _ h
  | _ => exact False.elim h

theorem AnswersAlike.of_refused {r : Refusal} {q : Result} (h : AnswersAlike (.refused r) q) : q = .refused r := by
  cases q with
  | refused p => exact congrArg _ h
  | _ => exact False.elim h

theorem AnswersAlike.andThen {r q : Result} {f g : State → Result} (h : AnswersAlike r q)
    (hfg : ∀ s t, SameButStale s t → AnswersAlike (f s) (g t)) : AnswersAlike (andThen r f) (andThen q g) := by
  cases r with
  | next s =>
    obtain ⟨t, rfl, hst⟩ := h.of_next
    exact hfg s t hst
  | fault e =>
    obtain rfl := h.of_fault
    exact h
  | refused r =>
    obtain rfl := h.of_refused
    exact h

/-- The same byte is stored at the same index, or discarded in both. -/
theorem push_alike {s t : State} (v : Byte) (h : SameButStale s t) : AnswersAlike (push v s) (push v t) := by
  have hcfg := h.cfg
  have hwr := h.wr
  by_cases hRoom : s.cfg.pad ≤ s.wr ∧ s.wr < s.cfg.bufEnd
  · obtain ⟨ht, ⟨hwf, hBound⟩, ⟨gwf, gBound⟩, hSame⟩ := h
    obtain ⟨hpad, hEnd⟩ := hRoom
    have gpad : t.cfg.pad ≤ t.wr := by rwa [hcfg, hwr]
    have gEnd : t.wr < t.cfg.bufEnd := by rwa [hcfg, hwr]
    rw [push_room v hpad hEnd, push_room v gpad gEnd]
    refine ⟨?_, ⟨Memory.write_wf hwf _ _, Memory.write_bound hBound hEnd⟩,
      ⟨Memory.write_wf gwf _ _, Memory.write_bound gBound gEnd⟩, fun a ha hlt => ?_⟩
    · rw [ht]
      rfl
    · rw [State.store_buf, State.store_buf, hwr]
      by_cases haw : a = s.wr
      · rw [haw, Memory.read_write_same gwf, Memory.read_write_same hwf]
      · rw [Memory.read_write_other _ _ haw, Memory.read_write_other _ _ haw]
        exact hSame a ha (Nat.lt_of_le_of_ne (Nat.le_of_lt_succ hlt) haw)
  · rw [push_noRoom v hRoom, push_noRoom v (by rw [hcfg, hwr]; exact hRoom)]
    exact h.map State.latchErr rfl rfl rfl (.inl rfl)

theorem exec_alike_of_not_receives {i : Instr} (hi : Instr.receives i = false) {s t : State} (h : SameButStale s t) :
    AnswersAlike (exec i s) (exec i t) := by
  obtain ⟨u, hu, hEffect⟩ := exec_sideEffect hi s
  have ht : exec i t = .next (u.setBuf t.buf) := by
    rw [h.eq_setBuf, exec_setBuf hi, hu, andThen_next]
    rfl
  rw [hu, ht]
  exact h.setBuf_of_kept hEffect.cfg hEffect.buf (.inl hEffect.wr)

theorem consumerOps_alike (ops : List Command) {s t : State} (h : SameButStale s t) :
    AnswersAlike (consumerOps ops s) (consumerOps ops t) := by
  induction ops generalizing s t with
  | nil => exact h
  | cons i ops ih =>
    refine AnswersAlike.andThen ?_ fun _ _ => ih
    cases hi : Command.allowedInDispatch i with
    | true =>
      rw [consumerOp_allowed hi, consumerOp_allowed hi]
      exact exec_alike_of_not_receives (by simpa [Command.allowedInDispatch] using hi) h
    | false =>
      rw [consumerOp_forbidden hi, consumerOp_forbidden hi]
      exact rfl

theorem consumerTurn_alike {s t : State} (h : SameButStale s t) : AnswersAlike (consumerTurn s) (consumerTurn t) := by
  have hVisits : t.visits = s.visits := by rw [h.eq_setBuf]; rfl
  cases hv : s.visits with
  | nil =>
    rw [consumerTurn_idle hv, consumerTurn_idle (hVisits.trans hv)]
    exact h
  | cons v later =>
    simp only [consumerTurn, hVisits, hv]
    refine (consumerOps_alike v.ops (h.map (State.setVisits later) rfl rfl rfl (.inl rfl))).andThen fun s' t' h' => ?_
    cases v.returns with
    | true => exact h'
    | false => exact rfl

theorem SameButStale.boundaryReset {s t : State} (h : SameButStale s t) : SameButStale s.boundaryReset t.boundaryReset :=
  h.map State.boundaryReset rfl rfl rfl (.inr rfl)

theorem execRxFlag_alike {s t : State} (h : SameButStale s t) : AnswersAlike (execRxFlag s) (execRxFlag t) := by
  by_cases ho : s.outcome = .delivered
  · rw [execRxFlag_delivered ho, execRxFlag_delivered (h.outcome.trans ho)]
    exact (consumerTurn_alike h.validate).andThen fun _ _ h' => h'.boundaryReset
  · rw [execRxFlag_dropped ho, execRxFlag_dropped (h.outcome ▸ ho)]
    exact h.validate.boundaryReset

theorem SameButStale.setEsc {s t : State} (h : SameButStale s t) (e : Bool) : SameButStale (s.setEsc e) (t.setEsc e) :=
  h.map (State.setEsc e) rfl rfl rfl (.inl rfl)

theorem execRxUnesc_alike {s t : State} (c : Byte) (h : SameButStale s t) : AnswersAlike (execRxUnesc c s) (execRxUnesc c t) := by
  rw [execRxUnesc, execRxUnesc, h.cfg]
  exact push_alike _ (h.setEsc false)

theorem execFeed_alike {s t : State} (c : Byte) (h : SameButStale s t) : AnswersAlike (execFeed c s) (execFeed c t) := by
  have hForm : rxForm t.cfg t.esc c = rxForm s.cfg s.esc c := by rw [h.eq_setBuf]; rfl
  simp only [execFeed, hForm]
  cases rxForm s.cfg s.esc c with
  | esc => exact h.setEsc true
  | unesc => exact execRxUnesc_alike c h
  | flag => exact execRxFlag_alike h
  | data => exact push_alike c h

theorem exec_alike (i : Instr) {s t : State} (h : SameButStale s t) : AnswersAlike (exec i s) (exec i t) := by
  by_cases hi : Instr.receives i = false
  · exact exec_alike_of_not_receives hi h
  · cases i with
    | feed c => exact execFeed_alike c h
    | rxEsc e => exact h.setEsc true
    | rxUnesc c => exact execRxUnesc_alike c h
    | rxFlag => exact execRxFlag_alike h
    | rxData c => exact push_alike c h
    | _ => exact absurd rfl hi

theorem step_alike {s t : State} (h : SameButStale s t) : AnswersAlike (step s) (step t) := by
  have hPending : t.pending = s.pending := by rw [h.eq_setBuf]; rfl
  have hFetch : ∀ x, t.fetchOf x = s.fetchOf x := fun x => by rw [h.eq_setBuf]; cases x <;> rfl
  by_cases hv : s.cfg.Valid
  · have hvt : t.cfg.Valid := by rwa [h.cfg]
    cases hp : s.pending with
    | nil =>
      rw [step_idle hv hp, step_idle hvt (hPending.trans hp)]
      exact h
    | cons x rest =>
      have hTaken : SameButStale (s.setPending rest) (t.setPending rest) := h.map (State.setPending rest) rfl rfl rfl (.inl rfl)
      cases hf : s.fetchOf x with
      | none =>
        rw [step_reset hv hp hf, step_reset hvt (hPending.trans hp) ((hFetch x).trans hf)]
        exact hTaken.map State.resetEvent rfl rfl rfl (.inr rfl)
      | some i =>
        rw [step_decoded hv hp hf, step_decoded hvt (hPending.trans hp) ((hFetch x).trans hf)]
        exact exec_alike i hTaken
  · rw [step_invalid hv, step_invalid (by rwa [h.cfg])]
    exact rfl

end Sys2Proof.Claims

namespace Sys2Proof

open Sys2Proof.Machine Sys2Proof.Claims

/-- Settles O53: no operation reads the buffer outside `[PAD, wr)`, and what a store or a boundary does to `wr` uncovers no stale byte. -/
theorem staleBufferBytesAreUnobservable : Obligations.StaleBufferBytesAreUnobservable := by
  intro s t h
  have hAlike := step_alike h
  refine ⟨fun s' hs => ?_, fun e hs => ?_, fun r hs => ?_⟩ <;> rw [hs] at hAlike
  · exact hAlike.of_next
  · exact hAlike.of_fault
  · exact hAlike.of_refused

end Sys2Proof
